-- ==== Sys2Proof/Word.lean ====
section
/-! DEFINITION. The words of the block: bytes on the bus, sample containers, DAC codes, exact rationals
(spec/00_scope.md R9, R10). -/

namespace Sys2Proof

/-- R9: a byte is 8 bits, bit 0 the least significant. -/
abbrev Byte := BitVec 8

/-- R8 SAMPLE_CONTAINER, R10 `s32`: a 32-bit two's-complement container. -/
abbrev Sample := BitVec 32

/-- R39, R80: a 16-bit DAC code. -/
abbrev DacCode := BitVec 16

/-- R88: a 4-bit ADC register address. -/
abbrev RegAddr := BitVec 4

/-- R27: a 3-bit gain code. -/
abbrev GainCode := BitVec 3

/-- R28: a 4-bit data-rate index. -/
abbrev RateIndex := BitVec 4

end Sys2Proof
end

