-- ==== Sys2Proof/Config.lean ====
section
/-! DEFINITION. What an implementation fixes: the source's constants, the parameters of
spec/00_scope.md R8 as one plain record, and the free values, which have no body. -/

namespace Sys2Proof

/-! ### Constants of the source (R8) -/

/-- R8, R143: the fixed full-scale divisor 2^23. -/
def fullScale : Nat := 8388608

/-- R8, R31: SE exposes channel indices 0..7. -/
def seChannels : Nat := 8

/-- R8, R31: DIFF exposes pair indices 0..3. -/
def diffChannels : Nat := 4

/-- R8: MAX_SCAN, the most entries a scan list may hold. -/
abbrev maxScan : Nat := 8

/-- R8: SETTLE_MAX, the greatest settling count. -/
def settleMax : Nat := 255

/-! ### Parameters (R8) -/

/-- R8 WAIT_MODE, R117 (D12): what bounds a data-ready wait. -/
inductive WaitMode where
  | polls
  | deadline
  deriving DecidableEq, Repr

/-- R20 (D22): whether an answer is the exact rational or its `ROUND`. -/
inductive NumericMode where
  | exact
  | float
  deriving DecidableEq, Repr

/-- The parameters of R8. They are configuration, fixed for the machine: `State` carries one record of
them so that a statement holds for every choice, and no step writes it (log 3). Times are exact
microseconds (log 24). -/
structure Params where
  /-- R117. -/
  waitMode : WaitMode
  /-- R117: POLL_LIMIT. -/
  pollLimit : Nat
  /-- R117: DEADLINE_US, OPEN. -/
  deadlineUs : Nat
  /-- The model's own: how many clock readings of one wait may fall short of the deadline (R119's
  fairness of the clock, log 8). -/
  fairBound : Nat
  /-- R182: T6_MIN. -/
  t6Min : Rat
  /-- R115, R183: T11_MIN, OPEN with a default. -/
  t11Min : Rat
  /-- R150: T_RST_LOW, OPEN with a default. -/
  tRstLow : Rat
  /-- R150: T_RST_HIGH, OPEN with a default. -/
  tRstHigh : Rat
  /-- R95: OPT_N, the settling count of the optimized policy. -/
  optN : Byte
  /-- R121: SETTLE_DISCARD_READ. -/
  settleDiscardRead : Bool
  /-- R91: CHIP_ID. -/
  chipId : BitVec 4
  /-- R3, R49: the least significant bit of the ID field in STATUS. -/
  idLsb : Nat
  /-- R14: FILL_BYTE, shifted out while response bytes are shifted in. -/
  fillByte : Byte
  /-- R85: the CMD_* bytes. -/
  cmdWakeup : Byte
  cmdRdata : Byte
  cmdRdatac : Byte
  cmdSdatac : Byte
  cmdRreg : Byte
  cmdWreg : Byte
  cmdSelfcal : Byte
  cmdSync : Byte
  cmdReset : Byte
  /-- R48: the REG_* addresses. The block's own rules use the first four. -/
  regStatus : RegAddr
  regMux : RegAddr
  regAdcon : RegAddr
  regDrate : RegAddr
  regIo : RegAddr
  regOfc0 : RegAddr
  regOfc1 : RegAddr
  regOfc2 : RegAddr
  regFsc0 : RegAddr
  regFsc1 : RegAddr
  regFsc2 : RegAddr
  /-- R106: REG_COUNT. -/
  regCount : Nat
  /-- R89: AINCOM_CODE. -/
  aincomCode : BitVec 4
  /-- R3, R50: the least significant bit of the negative input's field in MUX. -/
  nselLsb : Nat
  /-- R3, R89: the MUX_CODE tables. A single-ended entry, by channel index, leaves the negative input's field
  0, where AINCOM_CODE goes; an entry of the other table, by pair index, has both inputs. -/
  muxSe : Vector Byte 8
  muxDiff : Vector Byte 4
  /-- R3, R92: the STATUS_BYTE table, by buffer bit. -/
  statusByte : Vector Byte 2
  /-- R3, R92: the ADCON_BYTE table, by gain code. -/
  adconByte : Vector Byte 8
  /-- R87, R155: the DAC control bytes. -/
  dacCtrlA : Byte
  dacCtrlB : Byte
  /-- R29: the DRATE_BYTE table. -/
  drateByte : Vector Byte 16
  /-- R138: EFF_THRESHOLDS, in percent. -/
  effExcellent : Rat
  effGood : Rat
  effFair : Rat
  /-- R17, R137: TICK_HZ, OPEN. -/
  tickHz : Nat
  /-- R20: whether answers are rounded. -/
  numeric : NumericMode
  deriving DecidableEq, Repr

/-- The high nibble of a byte, `b[7:4]`. -/
def hiNibble (b : Byte) : BitVec 4 := b.extractLsb' 4 4

/-- The low nibble of a byte, `b[3:0]`. -/
def loNibble (b : Byte) : BitVec 4 := b.extractLsb' 0 4

/-- The seven command bytes that are a whole command by themselves (R85). -/
def Params.soloBytes (p : Params) : List Byte :=
  [p.cmdWakeup, p.cmdRdata, p.cmdRdatac, p.cmdSdatac, p.cmdSelfcal, p.cmdSync, p.cmdReset]

/-- R48, R52: the addresses of the calibration words OFC and FSC. -/
def Params.calRegs (p : Params) : List RegAddr :=
  [p.regOfc0, p.regOfc1, p.regOfc2, p.regFsc0, p.regFsc1, p.regFsc2]

/-- R48: the eleven register addresses. -/
def Params.regs (p : Params) : List RegAddr :=
  [p.regStatus, p.regMux, p.regAdcon, p.regDrate, p.regIo] ++ p.calRegs

/-- What every parameter record of this block satisfies: the command bytes tell the commands apart
(R84), a register opcode leaves its low nibble to the address (R88), the register addresses are
registers (R106) and differ (R48), the DAC control bytes differ (R87), the three DRATE bytes of the
source stand (R29), the optimized count is a settling count (R95) and the clock ticks (R17). -/
def Params.wf (p : Params) : Bool :=
  decide p.soloBytes.Nodup &&
  p.soloBytes.all (fun b => hiNibble b != hiNibble p.cmdRreg && hiNibble b != hiNibble p.cmdWreg) &&
  hiNibble p.cmdRreg != hiNibble p.cmdWreg &&
  loNibble p.cmdRreg == 0#4 && loNibble p.cmdWreg == 0#4 &&
  decide p.regs.Nodup &&
  p.regs.all (fun a => decide (a.toNat < p.regCount)) &&
  p.dacCtrlA != p.dacCtrlB &&
  p.drateByte[0] == 0xF0#8 && p.drateByte[7] == 0x82#8 && p.drateByte[15] == 0x03#8 &&
  p.optN != 0#8 && decide (0 < p.tickHz)

/-! ### Free values: constants with no body, so that nothing can be proved of them (log 3, 4, 8, 13) -/

/-- R21: the n-th response byte the outside answers when it has no answer ready in State. -/
opaque Config.freeByte : Nat → Byte

/-- R16, R21: whether the n-th sampled DRDY_N level is the inactive level 1. -/
opaque Config.freeLevel : Nat → Bool

/-- R16, R21: the n-th OpenTransport result. -/
opaque Config.freeOpen : Nat → Bool

/-- R17, R21: the n-th clock reading, before the monotone constraint. -/
opaque Config.freeTick : Nat → Nat

/-- R20: how an implementation in floating point rounds an exact rational. -/
opaque Config.round : Rat → Rat

/-- R8: TICK_HZ is OPEN, and a clock ticks: TICK_HZ is one more than this. -/
opaque Config.tickHzLess : Nat

/-- R8: DEADLINE_US is OPEN. -/
opaque Config.deadlineUs : Nat

/-- R119: how long the clock may take to pass a deadline, in readings. -/
opaque Config.fairBound : Nat

end Sys2Proof
end

