-- ==== Sys2Proof/Syntax.lean ====
section
/-! DEFINITION. The instructions of the block, one constructor per row of spec/opcode_table.json, and
the raw forms they are read from: the host port's request record (spec/30_encoding.md R78, R80) and the
wire frames (R83). -/

namespace Sys2Proof

/-- R31: CFG_SCANMODE. -/
inductive ScanMode where
  | se
  | diff
  deriving DecidableEq, Repr

/-- One constructor per row of spec/opcode_table.json: 15 host operations (R80), 9 ADC wire commands
(R85), 2 DAC frames (R87). Operands are the fields of R80 and R83. A register transaction moves one
register (R83 "n = 0"), so its count is no operand. -/
inductive Instr where
  | hostInit
  | hostReset
  | hostShutdown
  | hostConfigure (gain : GainCode) (drate : RateIndex) (bufen : BitVec 1)
  | hostSetScanMode (mode : ScanMode)
  | hostGetConfig
  | hostReadChannel (ch : Int)
  | hostScanChannels (list : List Int) (settle : Byte)
  | hostWriteCmd (cmd : Byte)
  | hostWriteReg (addr : RegAddr) (value : Byte)
  | hostReadReg (addr : RegAddr)
  | hostDacWrite (ch : Int) (code : DacCode)
  | hostPerfBegin (drate : RateIndex)
  | hostPerfReport
  | hostRawToVoltage (code : Sample) (gain : Nat) (vpos vneg : Rat)
  | adcWakeup
  | adcRdata
  | adcRdatac
  | adcSdatac
  | adcRreg (addr : RegAddr)
  | adcWreg (addr : RegAddr) (value : Byte)
  | adcSelfcal
  | adcSync
  | adcReset
  | dacWriteA (code : DacCode)
  | dacWriteB (code : DacCode)
  deriving DecidableEq, Repr

/-- R78: a host request `{op, args}`. The port is typed (R82, D1), so it is one bundle of the typed
fields of R80; an operation reads the fields of its own tag and no other (log 12). -/
structure Request where
  op : Byte
  gain : GainCode
  drate : RateIndex
  bufen : BitVec 1
  mode : BitVec 1
  ch : Int
  list : List Int
  settle : Byte
  cmd : Byte
  addr : RegAddr
  value : Byte
  dacCode : DacCode
  code : Sample
  mult : Nat
  vpos : Rat
  vneg : Rat
  deriving DecidableEq, Repr

/-- R83, R84: a frame on the wire, told apart by its chip select; the bytes in wire order. -/
inductive WireFrame where
  | adc (bytes : List Byte)
  | dac (bytes : List Byte)
  deriving DecidableEq, Repr

/-- The two encoded interfaces of spec/30_encoding.md. -/
inductive Frame where
  | host (r : Request)
  | wire (f : WireFrame)
  deriving DecidableEq, Repr

/-- R94, R95: the pseudo-operations and spellings that stand for core instructions. -/
inductive Pseudo where
  /-- `scan L, fast` -/
  | scanFast (list : List Int)
  /-- `scan L, optimized` -/
  | scanOptimized (list : List Int)
  /-- `cmd wakeup` and its five siblings -/
  | cmdWakeup
  | cmdSync
  | cmdSelfcal
  | cmdRdatac
  | cmdSdatac
  | cmdReset
  /-- `dac a, c` -/
  | dacA (code : DacCode)
  /-- `dac b, c` -/
  | dacB (code : DacCode)
  /-- `configure gain=<multiplier>, rate=<SPS>, buf=<0|1>` -/
  | configure (mult : Nat) (sps : Rat) (bufen : BitVec 1)
  /-- `perfbegin <SPS value>` -/
  | perfBegin (sps : Rat)
  deriving DecidableEq, Repr

end Sys2Proof
end

