-- ==== Sys2Proof/WellFormed.lean ====
section
/-! DEFINITION. Which instructions carry legal operands (spec/30_encoding.md R82, R93). A host operation
with an illegal operand can still be requested and is answered E_BAD_ARG (R82); a wire command with an
illegal register address is never emitted (R106). -/

namespace Sys2Proof

/-- R107, R93: the six command bytes HOST.WRITE_CMD admits. -/
def Params.hostCmds (p : Params) : List Byte :=
  [p.cmdWakeup, p.cmdSync, p.cmdSelfcal, p.cmdRdatac, p.cmdSdatac, p.cmdReset]

/-- The operand ranges of R82: gain code not 7 (R27), scan list at most MAX_SCAN and settle not 0 (R125),
an admitted command byte (R107), a register address below REG_COUNT (R106), a multiplier of the gain
table (R142). -/
def Instr.wellFormed (p : Params) : Instr → Bool
  | .hostConfigure gain _ _ => gain != 7#3
  | .hostScanChannels list settle => decide (list.length ≤ maxScan) && settle != 0#8
  | .hostWriteCmd cmd => p.hostCmds.contains cmd
  | .hostWriteReg addr _ => decide (addr.toNat < p.regCount)
  | .hostReadReg addr => decide (addr.toNat < p.regCount)
  | .hostRawToVoltage _ gain _ _ => [1, 2, 4, 8, 16, 32, 64].contains gain
  | .adcRreg addr => decide (addr.toNat < p.regCount)
  | .adcWreg addr _ => decide (addr.toNat < p.regCount)
  | .hostInit | .hostReset | .hostShutdown | .hostSetScanMode _ | .hostGetConfig | .hostReadChannel _
  | .hostDacWrite _ _ | .hostPerfBegin _ | .hostPerfReport | .adcWakeup | .adcRdata | .adcRdatac
  | .adcSdatac | .adcSelfcal | .adcSync | .adcReset | .dacWriteA _ | .dacWriteB _ => true

/-- Whether an instruction is a host operation (R80) rather than a wire command. -/
def Instr.isHost : Instr → Bool
  | .hostInit | .hostReset | .hostShutdown | .hostConfigure _ _ _ | .hostSetScanMode _ | .hostGetConfig
  | .hostReadChannel _ | .hostScanChannels _ _ | .hostWriteCmd _ | .hostWriteReg _ _ | .hostReadReg _
  | .hostDacWrite _ _ | .hostPerfBegin _ | .hostPerfReport | .hostRawToVoltage _ _ _ _ => true
  | .adcWakeup | .adcRdata | .adcRdatac | .adcSdatac | .adcRreg _ | .adcWreg _ _ | .adcSelfcal
  | .adcSync | .adcReset | .dacWriteA _ | .dacWriteB _ => false

end Sys2Proof
end

