-- ==== Sys2Proof/Decode.lean ====
section
/-! DEFINITION. From raw forms to instructions and back: the host port's tags (spec/30_encoding.md R80,
R82), the wire frames (R83 to R88), the encoder, the pseudo-operations (R94, R95), and the parameters'
defaults (spec/00_scope.md R8). Decoding is total: it gives an instruction or a named reason. -/

namespace Sys2Proof

/-! ### The parameters' defaults -/

/-- R29: the DRATE register bytes by data-rate index. -/
def drateByteDefault : Vector Byte 16 :=
  #v[0xF0#8, 0xE0#8, 0xD0#8, 0xC0#8, 0xB0#8, 0xA1#8, 0x92#8, 0x82#8,
     0x72#8, 0x63#8, 0x53#8, 0x43#8, 0x33#8, 0x23#8, 0x13#8, 0x03#8]

/-- R50, R89: MUX_CODE of the single-ended indices in the chip's layout, the index in the high nibble; the low
one is left to AINCOM_CODE. -/
def muxSeDefault : Vector Byte 8 :=
  #v[0x00#8, 0x10#8, 0x20#8, 0x30#8, 0x40#8, 0x50#8, 0x60#8, 0x70#8]

/-- R89: MUX_CODE of the pairs in the chip's layout. -/
def muxDiffDefault : Vector Byte 4 := #v[0x01#8, 0x23#8, 0x45#8, 0x67#8]

/-- R49, R92: STATUS_BYTE in the chip's layout, buffer off and on. -/
def statusByteDefault : Vector Byte 2 := #v[0x04#8, 0x06#8]

/-- R51, R92: ADCON_BYTE in the chip's layout, by gain code. -/
def adconByteDefault : Vector Byte 8 :=
  #v[0x00#8, 0x01#8, 0x02#8, 0x03#8, 0x04#8, 0x05#8, 0x06#8, 0x07#8]

/-- R8's defaults: the source's values, the chip's values of R48, R49, R51, R85, R87, R89, R91, and the
opaque constants for what R8 leaves OPEN without a default (log 3, 9). R8 gives ROUND no default: that these
parameters are an exact implementation's is the model's choice (log 13). -/
def Params.default : Params where
  waitMode := .polls
  pollLimit := 4000000
  deadlineUs := Config.deadlineUs
  fairBound := Config.fairBound
  t6Min := 7
  t11Min := 25 / 8
  tRstLow := 200000
  tRstHigh := 200000
  optN := 3#8
  settleDiscardRead := true
  chipId := 3#4
  idLsb := 4
  fillByte := 0x00#8
  cmdWakeup := 0x00#8
  cmdRdata := 0x01#8
  cmdRdatac := 0x03#8
  cmdSdatac := 0x0F#8
  cmdRreg := 0x10#8
  cmdWreg := 0x50#8
  cmdSelfcal := 0xF0#8
  cmdSync := 0xFC#8
  cmdReset := 0xFE#8
  regStatus := 0x0#4
  regMux := 0x1#4
  regAdcon := 0x2#4
  regDrate := 0x3#4
  regIo := 0x4#4
  regOfc0 := 0x5#4
  regOfc1 := 0x6#4
  regOfc2 := 0x7#4
  regFsc0 := 0x8#4
  regFsc1 := 0x9#4
  regFsc2 := 0xA#4
  regCount := 11
  aincomCode := 0x8#4
  nselLsb := 0
  muxSe := muxSeDefault
  muxDiff := muxDiffDefault
  statusByte := statusByteDefault
  adconByte := adconByteDefault
  dacCtrlA := 0x30#8
  dacCtrlB := 0x34#8
  drateByte := drateByteDefault
  effExcellent := 85
  effGood := 70
  effFair := 50
  tickHz := Config.tickHzLess + 1
  numeric := .exact

/-! ### Decoding -/

/-- Why a raw form spells no instruction. -/
inductive DecodeError where
  /-- R82: the host tag is not in R80. -/
  | badOp (tag : Byte)
  /-- No byte under the chip select: not a frame of R83. -/
  | emptyFrame
  /-- The frame's length is not the one its first byte fixes (R84). -/
  | badLength (first : Byte)
  /-- R86, R93: a first ADC byte the block never emits. -/
  | notEmitted (first : Byte)
  /-- R93: count n > 0, a multi-register transfer. -/
  | multiRegister (n : BitVec 4)
  /-- R93: the count byte's upper nibble is not 0. -/
  | reservedCount (count : Byte)
  /-- R93, R106: the address is no register. -/
  | noRegister (addr : RegAddr)
  /-- R93: a DAC control byte the block never emits. -/
  | badDacControl (ctrl : Byte)
  deriving DecidableEq, Repr

/-- R80: the scan mode of a mode field. -/
def scanModeOfBit (b : BitVec 1) : ScanMode := if b = 0#1 then .se else .diff

/-- R80: the mode field of a scan mode (SE = 0, DIFF = 1). -/
def bitOfScanMode : ScanMode → BitVec 1
  | .se => 0#1
  | .diff => 1#1

/-- R80, R82: the operation of a request's tag with its own fields, or E_BAD_OP's reason. -/
def decodeRequest (r : Request) : Except DecodeError Instr :=
  match r.op.toNat with
  | 0x01 => .ok .hostInit
  | 0x02 => .ok .hostReset
  | 0x03 => .ok .hostShutdown
  | 0x10 => .ok (.hostConfigure r.gain r.drate r.bufen)
  | 0x11 => .ok (.hostSetScanMode (scanModeOfBit r.mode))
  | 0x12 => .ok .hostGetConfig
  | 0x20 => .ok (.hostReadChannel r.ch)
  | 0x21 => .ok (.hostScanChannels r.list r.settle)
  | 0x30 => .ok (.hostWriteCmd r.cmd)
  | 0x31 => .ok (.hostWriteReg r.addr r.value)
  | 0x32 => .ok (.hostReadReg r.addr)
  | 0x40 => .ok (.hostDacWrite r.ch r.dacCode)
  | 0x50 => .ok (.hostPerfBegin r.drate)
  | 0x51 => .ok .hostPerfReport
  | 0x60 => .ok (.hostRawToVoltage r.code r.mult r.vpos r.vneg)
  | _ => .error (.badOp r.op)

/-- R88, R93, R106: the address of a register frame whose first two bytes are these. -/
def decodeRegister (p : Params) (first count : Byte) : Except DecodeError RegAddr :=
  if hiNibble count ≠ 0#4 then .error (.reservedCount count)
  else if loNibble count ≠ 0#4 then .error (.multiRegister (loNibble count))
  else if (loNibble first).toNat < p.regCount then .ok (loNibble first)
  else .error (.noRegister (loNibble first))

/-- R85: the command a solo byte spells, if it spells one. -/
def decodeSolo (p : Params) (b : Byte) : Option Instr :=
  if b = p.cmdWakeup then some .adcWakeup
  else if b = p.cmdRdata then some .adcRdata
  else if b = p.cmdRdatac then some .adcRdatac
  else if b = p.cmdSdatac then some .adcSdatac
  else if b = p.cmdSelfcal then some .adcSelfcal
  else if b = p.cmdSync then some .adcSync
  else if b = p.cmdReset then some .adcReset
  else none

/-- R83 to R85, R93: the command of the bytes under CS_ADC_N. -/
def decodeAdc (p : Params) : List Byte → Except DecodeError Instr
  | [] => .error .emptyFrame
  | first :: rest =>
    match decodeSolo p first with
    | some i => if rest = [] then .ok i else .error (.badLength first)
    | none =>
      if hiNibble first = hiNibble p.cmdRreg then
        match rest with
        | [count] => (decodeRegister p first count).map .adcRreg
        | _ => .error (.badLength first)
      else if hiNibble first = hiNibble p.cmdWreg then
        match rest with
        | [count, value] => (decodeRegister p first count).map fun a => .adcWreg a value
        | _ => .error (.badLength first)
      else .error (.notEmitted first)

/-- R63, R87, R93: the frame of the bytes under CS_DAC_N. -/
def decodeDac (p : Params) : List Byte → Except DecodeError Instr
  | [] => .error .emptyFrame
  | ctrl :: rest =>
    if ctrl = p.dacCtrlA then
      match rest with
      | [high, low] => .ok (.dacWriteA (high ++ low))
      | _ => .error (.badLength ctrl)
    else if ctrl = p.dacCtrlB then
      match rest with
      | [high, low] => .ok (.dacWriteB (high ++ low))
      | _ => .error (.badLength ctrl)
    else .error (.badDacControl ctrl)

/-- R84: the chip select tells the ADC's frames from the DAC's. -/
def decodeWire (p : Params) : WireFrame → Except DecodeError Instr
  | .adc bytes => decodeAdc p bytes
  | .dac bytes => decodeDac p bytes

/-- Either interface. -/
def decode (p : Params) : Frame → Except DecodeError Instr
  | .host r => decodeRequest r
  | .wire f => decodeWire p f

/-! ### Encoding -/

/-- A request of one tag, every field 0. -/
def Request.ofTag (op : Byte) : Request where
  op := op
  gain := 0#3
  drate := 0#4
  bufen := 0#1
  mode := 0#1
  ch := 0
  list := []
  settle := 0#8
  cmd := 0#8
  addr := 0#4
  value := 0#8
  dacCode := 0#16
  code := 0#32
  mult := 0
  vpos := 0
  vneg := 0

/-- R88: `{OPC[3:0], addr[3:0]}`, the address OR-ed into the low nibble. -/
def regOpByte (opc : Byte) (addr : RegAddr) : Byte := opc ||| addr.zeroExtend 8

/-- R88: the count byte `{4'b0000, n}` with n = 0. -/
def countByte : Byte := 0x00#8

/-- R102: the bytes of a one-register REGW frame. -/
def wregBytes (p : Params) (addr : RegAddr) (value : Byte) : List Byte :=
  [regOpByte p.cmdWreg addr, countByte, value]

/-- R101: the bytes out of a one-register REGR frame. -/
def rregBytes (p : Params) (addr : RegAddr) : List Byte :=
  [regOpByte p.cmdRreg addr, countByte]

/-- R63, R155: a DACW frame, the code most significant byte first. -/
def dacBytes (ctrl : Byte) (code : DacCode) : List Byte :=
  [ctrl, code.extractLsb' 8 8, code.extractLsb' 0 8]

/-- The raw form of an instruction, from the tables of R80, R83, R85 and R87. -/
def encode (p : Params) : Instr → Frame
  | .hostInit => .host (.ofTag 0x01#8)
  | .hostReset => .host (.ofTag 0x02#8)
  | .hostShutdown => .host (.ofTag 0x03#8)
  | .hostConfigure gain drate bufen =>
    .host { Request.ofTag 0x10#8 with gain := gain, drate := drate, bufen := bufen }
  | .hostSetScanMode mode => .host { Request.ofTag 0x11#8 with mode := bitOfScanMode mode }
  | .hostGetConfig => .host (.ofTag 0x12#8)
  | .hostReadChannel ch => .host { Request.ofTag 0x20#8 with ch := ch }
  | .hostScanChannels list settle =>
    .host { Request.ofTag 0x21#8 with list := list, settle := settle }
  | .hostWriteCmd cmd => .host { Request.ofTag 0x30#8 with cmd := cmd }
  | .hostWriteReg addr value => .host { Request.ofTag 0x31#8 with addr := addr, value := value }
  | .hostReadReg addr => .host { Request.ofTag 0x32#8 with addr := addr }
  | .hostDacWrite ch code => .host { Request.ofTag 0x40#8 with ch := ch, dacCode := code }
  | .hostPerfBegin drate => .host { Request.ofTag 0x50#8 with drate := drate }
  | .hostPerfReport => .host (.ofTag 0x51#8)
  | .hostRawToVoltage code gain vpos vneg =>
    .host { Request.ofTag 0x60#8 with code := code, mult := gain, vpos := vpos, vneg := vneg }
  | .adcWakeup => .wire (.adc [p.cmdWakeup])
  | .adcRdata => .wire (.adc [p.cmdRdata])
  | .adcRdatac => .wire (.adc [p.cmdRdatac])
  | .adcSdatac => .wire (.adc [p.cmdSdatac])
  | .adcRreg addr => .wire (.adc (rregBytes p addr))
  | .adcWreg addr value => .wire (.adc (wregBytes p addr value))
  | .adcSelfcal => .wire (.adc [p.cmdSelfcal])
  | .adcSync => .wire (.adc [p.cmdSync])
  | .adcReset => .wire (.adc [p.cmdReset])
  | .dacWriteA code => .wire (.dac (dacBytes p.dacCtrlA code))
  | .dacWriteB code => .wire (.dac (dacBytes p.dacCtrlB code))

/-! ### Frame lengths (R84) -/

/-- R84: how many bytes the ADC frame that starts with these bytes shifts out, and how many in, as a
receiver of the trace reads it (any count n, although the block sends only n = 0). -/
def adcFrameLength (p : Params) : List Byte → Option (Nat × Nat)
  | [] => none
  | first :: rest =>
    if first = p.cmdRdata then some (1, 3)
    else if (decodeSolo p first).isSome then some (1, 0)
    else
      match rest with
      | [] => none
      | count :: _ =>
        if hiNibble first = hiNibble p.cmdWreg then some (2 + (loNibble count).toNat + 1, 0)
        else if hiNibble first = hiNibble p.cmdRreg then some (2, (loNibble count).toNat + 1)
        else none

/-! ### Pseudo-operations (R94, R95) -/

/-- R27, R94: the code of a gain written as its multiplier. -/
def gainCodeOf? (mult : Nat) : Option GainCode :=
  ([1, 2, 4, 8, 16, 32, 64].findIdx? (· == mult)).map (BitVec.ofNat 3)

/-- R29, R94: the index of a rate written as its SPS value. -/
def rateIndexOf? (sps : Rat) : Option RateIndex :=
  (([30000, 15000, 7500, 3750, 2000, 1000, 500, 100, 60, 50, 30, 25, 15, 10, 5, 5 / 2] : List Rat).findIdx?
    (· == sps)).map (BitVec.ofNat 4)

/-- R94, R95: the core instruction a pseudo-operation stands for; none where a spelling names no gain or
no rate of the tables. -/
def Pseudo.expand (p : Params) : Pseudo → Option Instr
  | .scanFast list => some (.hostScanChannels list 1#8)
  | .scanOptimized list => some (.hostScanChannels list p.optN)
  | .cmdWakeup => some (.hostWriteCmd p.cmdWakeup)
  | .cmdSync => some (.hostWriteCmd p.cmdSync)
  | .cmdSelfcal => some (.hostWriteCmd p.cmdSelfcal)
  | .cmdRdatac => some (.hostWriteCmd p.cmdRdatac)
  | .cmdSdatac => some (.hostWriteCmd p.cmdSdatac)
  | .cmdReset => some (.hostWriteCmd p.cmdReset)
  | .dacA code => some (.hostDacWrite 0 code)
  | .dacB code => some (.hostDacWrite 1 code)
  | .configure mult sps bufen =>
    match gainCodeOf? mult, rateIndexOf? sps with
    | some gain, some drate => some (.hostConfigure gain drate bufen)
    | _, _ => none
  | .perfBegin sps => (rateIndexOf? sps).map .hostPerfBegin

/-! ### The opcode table's words -/

/-- The k-th byte of a word of the opcode table. -/
def tableByte (w k : Nat) : Byte := BitVec.ofNat 8 (w >>> (8 * k))

/-- The tags of R80. -/
def hostTags : List Byte :=
  [0x01#8, 0x02#8, 0x03#8, 0x10#8, 0x11#8, 0x12#8, 0x20#8, 0x21#8, 0x30#8, 0x31#8, 0x32#8, 0x40#8,
   0x50#8, 0x51#8, 0x60#8]

/-- The wire frame a table word lays out: its first byte fixes the length (R84), and the bytes the table
gives no bits are 0. A first byte that is a DAC control byte and no ADC command is a DAC frame. -/
def tableWire (p : Params) (w : Nat) : WireFrame :=
  let first := tableByte w 0
  if (decodeSolo p first).isSome then .adc [first]
  else if hiNibble first = hiNibble p.cmdRreg then .adc [first, tableByte w 1]
  else if hiNibble first = hiNibble p.cmdWreg then .adc [first, tableByte w 1, tableByte w 2]
  else .dac [first, tableByte w 1, tableByte w 2]

/-- The raw form of a table word. A host tag and a wire byte can be the same number (0x01, 0x03, 0x10,
0x30, 0x50), since the table numbers two interfaces: a word of one byte that is a host tag is read on the
host port, every other word on the wire (log 6). A tag's operand fields have no bits and are 0. -/
def tableFrame (p : Params) (nbits w : Nat) : Frame :=
  if nbits ≤ 8 ∧ hostTags.contains (tableByte w 0) then .host (.ofTag (tableByte w 0))
  else .wire (tableWire p w)

/-- The instruction the decoder reads from a word of spec/opcode_table.json. -/
def decodeTableWord (nbits w : Nat) : Option Instr :=
  (decode Params.default (tableFrame Params.default nbits w)).toOption

end Sys2Proof
end

