-- ==== Sys2Proof/Machine/State.lean ====
section
/-! DEFINITION. The state of the block as plain data (spec/10_state.md), its responses and logs, the
reasons a step can stop, and the state after power-on reset (R55). -/

namespace Sys2Proof.Machine

/-! ### Names -/

/-- R25: HSTATE. -/
inductive HState where
  | uninit
  | ready
  | shutdown
  deriving DecidableEq, Repr

/-- R32: PHASE. -/
inductive Phase where
  | idle
  | channelSelected
  | synchronized
  | converting
  | ready
  | read
  deriving DecidableEq, Repr

/-- R16, R44: a driven or sampled logic level, `low` = 0 and `high` = 1. -/
inductive Level where
  | low
  | high
  deriving DecidableEq, Repr

/-- R44: an output line, released or driven. -/
inductive Line where
  | rel
  | driven (l : Level)
  deriving DecidableEq, Repr

/-- R14, R15: which chip select brackets a transaction. -/
inductive ChipSelect where
  | adc
  | dac
  deriving DecidableEq, Repr

/-- R113, R159: who called an acquisition. -/
inductive AcqOp where
  | readChannel
  | scanChannels
  deriving DecidableEq, Repr

/-- R159: who waits for DRDY. -/
inductive Site where
  | init
  | reset
  | configure
  | selfcal
  | acq (op : AcqOp) (slot : Nat)
  deriving DecidableEq, Repr

/-- R46, R159: the warning records. -/
inductive Warning where
  | drdyTimeout (site : Site) (level : Level)
  | invalidChannel (op : AcqOp) (slot : Nat) (index : Int)
  | dacInvalidChannel (index : Int)
  deriving DecidableEq, Repr

/-- R47: the bus events of R14 to R16. In `tx`, `gap` marks a wait of at least T6_MIN between `out` and
`inp` (R14). -/
inductive Event where
  | tx (cs : ChipSelect) (out : List Byte) (gap : Bool) (inp : List Byte)
  | poll (level : Level)
  | delay (atLeast : Rat)
  | rst (level : Level)
  | opened (ok : Bool)
  | closed
  deriving DecidableEq, Repr

/-- R41, R138: MON_STATUS. -/
inductive MonStatus where
  | noData
  | excellent
  | good
  | fair
  | poor
  deriving DecidableEq, Repr

/-- R158: the status codes. -/
inductive Status where
  | ok
  | initBus
  | initId
  | notReady
  | alreadyInit
  | badArg
  | contMode
  | badOp
  deriving DecidableEq, Repr

/-- R81: the metrics payload. -/
structure Metrics where
  start : Nat
  samples : Nat
  scans : Nat
  theo : Rat
  spsTotal : Rat
  spsCh : Rat
  eff : Rat
  status : MonStatus
  deriving DecidableEq, Repr

/-- R80: the payloads. -/
inductive Payload where
  | none
  | config (gain : GainCode) (drate : RateIndex) (bufen : BitVec 1) (mode : ScanMode)
  | sample (v : Sample)
  | samples (vs : List Sample)
  | value (v : Byte)
  | metrics (m : Metrics)
  | voltage (v : Rat)
  deriving DecidableEq, Repr

/-- R79: a host response. -/
structure Response where
  status : Status
  payload : Payload
  deriving DecidableEq, Repr

/-! ### Parts of the state -/

/-- R26 to R31: the configuration register file. -/
structure Cfg where
  gain : GainCode
  drate : RateIndex
  bufen : BitVec 1
  scanMode : ScanMode
  deriving DecidableEq, Repr

/-- R32 to R34, R38: the acquisition's registers. `none` is the spec's own "no value (unwritten)" of R55
(log 10). -/
structure Acq where
  phase : Phase
  settleN : Byte
  settleK : Byte
  pollCnt : Nat
  ch : Option Int
  mux : Option Byte
  lastSample : Option Sample
  deriving DecidableEq, Repr

/-- R36, R37: the scanner's registers. A RESULT entry that is `none` is the spec's own "no value
(unwritten)" of R55 (log 10). -/
structure Scan where
  list : List Int
  len : Nat
  idx : Nat
  settle : Byte
  result : Vector (Option Sample) 8
  deriving DecidableEq, Repr

/-- R40, R41: the performance monitor. -/
structure Mon where
  active : Bool
  start : Nat
  theo : Rat
  samples : Nat
  scans : Nat
  lastN : Nat
  spsTotal : Rat
  spsCh : Rat
  eff : Rat
  status : MonStatus
  deriving DecidableEq, Repr

/-- R43, R44: LINES_OPEN and the output lines. -/
structure Lines where
  held : Bool
  csAdc : Line
  csDac : Line
  rst : Line
  deriving DecidableEq, Repr

/-- R21: what the outside answers. The model's own (log 4): for each kind of answer the list of those the
outside has ready, taken in order, and the number drawn, which the opaque free value is applied to once
the list is empty. `lastTick` is the greatest clock answer so far (R17, log 7). -/
structure Oracle where
  opens : List Bool
  levels : List Level
  bytes : List Byte
  ticks : List Nat
  opensDrawn : Nat
  levelsDrawn : Nat
  bytesDrawn : Nat
  ticksDrawn : Nat
  lastTick : Nat
  deriving DecidableEq, Repr

/-- The state of spec/10_state.md, the host's ports (R43, R78, R79), and the model's own fields `par`
(log 3), `oracle` (log 4), `hostScript` (log 2) and `wireSlot` (log 5). -/
structure State where
  par : Params
  hstate : HState
  cfg : Cfg
  acq : Acq
  contMode : Bool
  scan : Scan
  dacA : Option DacCode
  dacB : Option DacCode
  mon : Mon
  lines : Lines
  warnLog : List Warning
  trace : List Event
  reqPort : Option Request
  responses : List Response
  hostScript : List Request
  wireSlot : Option WireFrame
  oracle : Oracle
  deriving DecidableEq, Repr

/-! ### Reset values (R55, R56) -/

/-- R56: the configuration defaults, scan mode included. -/
def Cfg.reset : Cfg where
  gain := 0#3
  drate := 0#4
  bufen := 0#1
  scanMode := .se

/-- R55. -/
def Acq.reset : Acq where
  phase := .idle
  settleN := 0#8
  settleK := 0#8
  pollCnt := 0
  ch := none
  mux := none
  lastSample := none

/-- R55. -/
def Scan.reset : Scan where
  list := []
  len := 0
  idx := 0
  settle := 0#8
  result := #v[none, none, none, none, none, none, none, none]

/-- R55. -/
def Mon.reset : Mon where
  active := false
  start := 0
  theo := 0
  samples := 0
  scans := 0
  lastN := 0
  spsTotal := 0
  spsCh := 0
  eff := 0
  status := .noData

/-- R55: every line released. -/
def Lines.released : Lines where
  held := false
  csAdc := .rel
  csDac := .rel
  rst := .rel

/-- Log 4: the outside has no answer ready, so every answer is a free value. -/
def Oracle.reset : Oracle where
  opens := []
  levels := []
  bytes := []
  ticks := []
  opensDrawn := 0
  levelsDrawn := 0
  bytesDrawn := 0
  ticksDrawn := 0
  lastTick := 0

/-- R55, R176: power-on reset. -/
def State.reset : State where
  par := Params.default
  hstate := .uninit
  cfg := Cfg.reset
  acq := Acq.reset
  contMode := false
  scan := Scan.reset
  dacA := none
  dacB := none
  mon := Mon.reset
  lines := Lines.released
  warnLog := []
  trace := []
  reqPort := none
  responses := []
  hostScript := []
  wireSlot := none
  oracle := Oracle.reset

/-! ### Reasons to stop -/

/-- A closed list of faults. -/
inductive Fault where
  /-- Raised by HOST.SCAN_CHANNELS when it would read a RESULT entry that holds no value (R37, R57 "a
  model that reads one faults"). Safe: no rule reads such an entry, and no scan reaches it. -/
  | unwrittenResult
  deriving DecidableEq, Repr

/-- A closed list of refusals of the model (not the block's refusals of R12, which are responses). -/
inductive Refusal where
  /-- Raised by exec's arm of an instruction that has no meaning. Safe. -/
  | notModelled (mnemonic : String)
  /-- Raised by step when the wire slot holds bytes that are no frame the block emits (R93). Safe: the
  block never emits them. -/
  | notAFrame (e : DecodeError)
  deriving DecidableEq, Repr

end Sys2Proof.Machine
end

