-- ==== Sys2Proof/Machine/Operands.lean ====
section
/-! DEFINITION. Operand checks and operand assembly: gains and rates (spec/10_state.md R27, R29), channel
validity (spec/41_conversion.md R110), multiplexer, sample, identity and configuration bytes
(spec/30_encoding.md R89 to R92), the DAC control byte (R87). -/

namespace Sys2Proof.Machine

/-! ### Gains and rates -/

/-- R27: the seven multipliers in code order. -/
def gainTable : List Nat := [1, 2, 4, 8, 16, 32, 64]

/-- R27: GAIN_MULT; code 7 is not a gain. -/
def gainMult (c : GainCode) : Option Nat := gainTable[c.toNat]?

/-- R27, R145: a gain code HOST.CONFIGURE accepts. -/
def validGainCode (c : GainCode) : Bool := (gainMult c).isSome

/-- R142: VALID_GAIN_MULT. -/
def validGainMult (g : Nat) : Bool := gainTable.contains g

/-- R29: DRATE_SPS by index; a table, computed from nothing. -/
def drateSpsTable : Vector Rat 16 :=
  #v[30000, 15000, 7500, 3750, 2000, 1000, 500, 100, 60, 50, 30, 25, 15, 10, 5, 5 / 2]

/-- R29: DRATE_SPS. -/
def drateSps (i : RateIndex) : Rat := drateSpsTable.get i.toFin

/-- R29: DRATE_BYTE. -/
def drateByte (p : Params) (i : RateIndex) : Byte := p.drateByte.get i.toFin

/-! ### Registers and commands -/

/-- R106: VALID_REG. -/
def validReg (p : Params) (a : RegAddr) : Bool := decide (a.toNat < p.regCount)

/-- R107: the command bytes HOST.WRITE_CMD admits. -/
def admittedCmd (p : Params) (c : Byte) : Bool :=
  c == p.cmdWakeup || c == p.cmdSync || c == p.cmdSelfcal || c == p.cmdRdatac || c == p.cmdSdatac ||
    c == p.cmdReset

/-- R107, R163: the admitted command bytes that CONT_MODE does not refuse. -/
def endsContMode (p : Params) (c : Byte) : Bool := c == p.cmdSdatac || c == p.cmdReset

/-- R92: STATUS_BYTE, whose layout is a parameter (R3). -/
def statusByte (p : Params) (bufen : BitVec 1) : Byte := p.statusByte.get bufen.toFin

/-- R92: ADCON_BYTE, whose layout is a parameter (R3). -/
def adconByte (p : Params) (g : GainCode) : Byte := p.adconByte.get g.toFin

/-- R91: the four-bit ID field of a STATUS value. -/
def chipIdOf (p : Params) (status : Byte) : BitVec 4 := status.extractLsb' p.idLsb 4

/-! ### Channels and samples -/

/-- R31, R110: NUM_CH. -/
def numCh : ScanMode → Nat
  | .se => seChannels
  | .diff => diffChannels

/-- R110: VALID_CH; negative indices are invalid. -/
def validCh (m : ScanMode) (ch : Int) : Bool := decide (0 ≤ ch) && decide (ch < numCh m)

/-- R50, R89: AINCOM_CODE in the negative input's field. -/
def aincomField (p : Params) : Byte := p.aincomCode.zeroExtend 8 <<< p.nselLsb

/-- R89: MUX_CODE of a valid index, whose layout is a parameter (R3): the channel's input against the common
input, or the pair's two inputs. -/
def muxCode (p : Params) (m : ScanMode) (ch : Int) : Byte :=
  match m with
  | .se => p.muxSe.get (Fin.ofNat 8 ch.toNat) ||| aincomField p
  | .diff => p.muxDiff.get (Fin.ofNat 4 ch.toNat)

/-- R61, R90: the raw sample of the three response bytes, `b0` first on the wire. -/
def rawSample (b0 b1 b2 : Byte) : Sample := (b0 ++ b1 ++ b2 : BitVec 24).signExtend 32

/-! ### The DAC -/

/-- R39, R156: the two DAC channels. -/
inductive DacChannel where
  | a
  | b
  deriving DecidableEq, Repr

/-- R156: channel 0 is A, 1 is B, no other index is a channel. -/
def dacChannel? (ch : Int) : Option DacChannel :=
  if ch = 0 then some .a else if ch = 1 then some .b else none

/-- R87, R155: DAC_CTRL. -/
def dacCtrl (p : Params) : DacChannel → Byte
  | .a => p.dacCtrlA
  | .b => p.dacCtrlB

end Sys2Proof.Machine
end

