-- ==== Sys2Proof/Machine/Flags.lean ====
section
/-! DEFINITION. What the block computes as status: the status codes' values (spec/60_exceptions.md R158),
the monitor's derived fields and classification (spec/43_perf_monitor.md R137, R138), and the rounding of
an answer (spec/00_scope.md R20). The block has no condition flags (spec/10_state.md R42). -/

namespace Sys2Proof.Machine

/-- R158: the code of a status. -/
def Status.code : Status → Byte
  | .ok => 0#8
  | .initBus => 1#8
  | .initId => 2#8
  | .notReady => 3#8
  | .alreadyInit => 4#8
  | .badArg => 5#8
  | .contMode => 6#8
  | .badOp => 7#8

/-- R138: Classify, with strict comparisons. -/
def classify (p : Params) (samples : Nat) (eff : Rat) : MonStatus :=
  if samples = 0 then .noData
  else if p.effExcellent < eff then .excellent
  else if p.effGood < eff then .good
  else if p.effFair < eff then .fair
  else .poor

/-- R137: elapsed seconds at tick t. -/
def elapsed (p : Params) (m : Mon) (t : Nat) : Rat := ((t : Rat) - (m.start : Rat)) / (p.tickHz : Rat)

/-- R137: actual average SPS, total. -/
def spsTotalAt (p : Params) (m : Mon) (t : Nat) : Rat :=
  if 0 < elapsed p m t then (m.samples : Rat) / elapsed p m t else 0

/-- R137: actual average SPS per channel. -/
def spsChAt (p : Params) (m : Mon) (t : Nat) : Rat :=
  if 0 < m.lastN then spsTotalAt p m t / (m.lastN : Rat) else 0

/-- R137: the efficiency in percent. -/
def effAt (p : Params) (m : Mon) (t : Nat) : Rat :=
  if 0 < m.theo then spsChAt p m t / m.theo * 100 else 0

/-- R137: Derive. -/
def Mon.derive (p : Params) (t : Nat) (m : Mon) : Mon :=
  { m with
    spsTotal := spsTotalAt p m t
    spsCh := spsChAt p m t
    eff := effAt p m t
    status := classify p m.samples (effAt p m t) }

/-- R20: an answer is the exact rational, or its ROUND in a floating-point implementation. -/
def answer (p : Params) (q : Rat) : Rat :=
  match p.numeric with
  | .exact => q
  | .float => Config.round q

/-- R81, R139: the metrics record of the monitor. -/
def Mon.report (p : Params) (m : Mon) : Metrics where
  start := m.start
  samples := m.samples
  scans := m.scans
  theo := answer p m.theo
  spsTotal := answer p m.spsTotal
  spsCh := answer p m.spsCh
  eff := answer p m.eff
  status := m.status

end Sys2Proof.Machine
end

