-- ==== Sys2Proof/Machine/Ops.lean ====
section
/-! DEFINITION. The operations every meaning is built from: the logs and the response port
(spec/00_scope.md R12), the oracle's draws (R21), the bus primitives (R14 to R17), the command layer's
transactions (spec/40_command_layer.md R96, R98, R101, R102), the bounded wait
(spec/41_conversion.md R117), and the admission of a request (spec/60_exceptions.md R162 to R164). The
block takes no exception (R166): `State.refuse` and `State.warn` are what stands in its place. -/

namespace Sys2Proof.Machine

/-! ### Single-field updates -/

/-- R47: append a bus event. -/
def State.emit (s : State) (e : Event) : State := { s with trace := s.trace ++ [e] }

/-- R12, R46: append a warning record and go on. -/
def State.warn (s : State) (w : Warning) : State := { s with warnLog := s.warnLog ++ [w] }

/-- R12, R79: deliver the response of a host operation. -/
def State.respond (s : State) (st : Status) (pl : Payload) : State :=
  { s with responses := s.responses ++ [⟨st, pl⟩] }

/-- R12: `refuse E`, the response (E, none) and no other change. -/
def State.refuse (s : State) (e : Status) : State := s.respond e .none

def State.setHState (s : State) (h : HState) : State := { s with hstate := h }

def State.setCfg (s : State) (c : Cfg) : State := { s with cfg := c }

def State.setAcq (s : State) (a : Acq) : State := { s with acq := a }

def State.setContMode (s : State) (b : Bool) : State := { s with contMode := b }

def State.setScan (s : State) (sc : Scan) : State := { s with scan := sc }

def State.setMon (s : State) (m : Mon) : State := { s with mon := m }

def State.setLines (s : State) (ls : Lines) : State := { s with lines := ls }

def State.setOracle (s : State) (o : Oracle) : State := { s with oracle := o }

/-- R39: write one DAC shadow register. -/
def State.setDac (s : State) (ch : DacChannel) (code : DacCode) : State :=
  match ch with
  | .a => { s with dacA := some code }
  | .b => { s with dacB := some code }

/-- R32: move the conversion state machine. -/
def State.setPhase (s : State) (ph : Phase) : State := s.setAcq { s.acq with phase := ph }

/-- R56: the configuration defaults a reset of the ADC loads; the scan mode stays. -/
def State.loadDefaults (s : State) : State :=
  s.setCfg { s.cfg with gain := 0#3, drate := 0#4, bufen := 0#1 }

/-! ### The oracle's draws (R21) -/

/-- A level from the free value's Bool. -/
def levelOfBool : Bool → Level
  | true => .high
  | false => .low

/-- The other level. -/
def Level.other : Level → Level
  | .low => .high
  | .high => .low

/-- The next response byte: the one the outside has ready, else a free value. -/
def Oracle.nextByte (o : Oracle) : Byte := o.bytes.headD (Config.freeByte o.bytesDrawn)

def Oracle.dropByte (o : Oracle) : Oracle :=
  { o with bytes := o.bytes.tail, bytesDrawn := o.bytesDrawn + 1 }

/-- The next DRDY_N level. -/
def Oracle.nextLevel (o : Oracle) : Level := o.levels.headD (levelOfBool (Config.freeLevel o.levelsDrawn))

def Oracle.dropLevel (o : Oracle) : Oracle :=
  { o with levels := o.levels.tail, levelsDrawn := o.levelsDrawn + 1 }

/-- The next OpenTransport result. -/
def Oracle.nextOpen (o : Oracle) : Bool := o.opens.headD (Config.freeOpen o.opensDrawn)

def Oracle.dropOpen (o : Oracle) : Oracle :=
  { o with opens := o.opens.tail, opensDrawn := o.opensDrawn + 1 }

/-- R17: the next clock answer, at least every earlier one, and at least `floor` (log 7, 8). -/
def Oracle.nextTick (o : Oracle) (floor : Nat) : Nat :=
  max floor (max o.lastTick (o.ticks.headD (Config.freeTick o.ticksDrawn)))

def Oracle.dropTick (o : Oracle) (floor : Nat) : Oracle :=
  { o with
    ticks := o.ticks.tail
    ticksDrawn := o.ticksDrawn + 1
    lastTick := o.nextTick floor }

/-- n response bytes, the first drawn first. -/
def Oracle.drawBytes : (n : Nat) → Oracle → Vector Byte n × Oracle
  | 0, o => (#v[], o)
  | n + 1, o =>
    let r := Oracle.drawBytes n o
    (r.1.push r.2.nextByte, r.2.dropByte)

/-! ### Bus primitives (R14 to R17) -/

/-- R44: drive a chip select. A block that does not hold the transport drives nothing (log 11). -/
def Lines.drive (ls : Lines) (cs : ChipSelect) (l : Level) : Lines :=
  if ls.held then
    match cs with
    | .adc => { ls with csAdc := .driven l }
    | .dac => { ls with csDac := .driven l }
  else ls

/-- R14: AdcTx. CS_ADC_N falls, the bytes go out, `nIn` bytes come in after the gap, CS_ADC_N rises, and
the transaction is one event. -/
def adcTx (out : List Byte) (gap : Bool) (nIn : Nat) (s : State) : Vector Byte nIn × State :=
  let s₁ := s.setLines (s.lines.drive .adc .low)
  let r := Oracle.drawBytes nIn s₁.oracle
  let s₂ := s₁.setOracle r.2
  let s₃ := s₂.setLines (s₂.lines.drive .adc .high)
  (r.1, s₃.emit (.tx .adc out gap r.1.toList))

/-- R15: DacTx. -/
def dacTx (out : List Byte) (s : State) : State :=
  let s₁ := s.setLines (s.lines.drive .dac .low)
  let s₂ := s₁.setLines (s₁.lines.drive .dac .high)
  s₂.emit (.tx .dac out false [])

/-- R16: PollDrdy. -/
def pollDrdy (s : State) : Level × State :=
  (s.oracle.nextLevel, (s.setOracle s.oracle.dropLevel).emit (.poll s.oracle.nextLevel))

/-- R16: Delay. -/
def delay (t : Rat) (s : State) : State := s.emit (.delay t)

/-- R16: SetRst. -/
def setRst (l : Level) (s : State) : State :=
  (s.setLines (if s.lines.held then { s.lines with rst := .driven l } else s.lines)).emit (.rst l)

/-- R16: OpenTransport. -/
def openTransport (s : State) : Bool × State :=
  (s.oracle.nextOpen, (s.setOracle s.oracle.dropOpen).emit (.opened s.oracle.nextOpen))

/-- R16: CloseTransport. -/
def closeTransport (s : State) : State := s.emit .closed

/-- R17: Now, here with a least answer (0 for a plain reading). -/
def nowAtLeast (floor : Nat) (s : State) : Nat × State :=
  (s.oracle.nextTick floor, s.setOracle (s.oracle.dropTick floor))

/-- R17: Now. -/
def now (s : State) : Nat × State := nowAtLeast 0 s

/-! ### Command-layer transactions -/

/-- R96: SendCmd. -/
def sendCmd (c : Byte) (s : State) : State := (adcTx [c] false 0 s).2

/-- R98: RData. -/
def rData (s : State) : Sample × State :=
  let r := adcTx [s.par.cmdRdata] true 3 s
  (rawSample r.1[0] r.1[1] r.1[2], r.2)

/-- R101: RReg1. -/
def rReg1 (a : RegAddr) (s : State) : Byte × State :=
  let r := adcTx (rregBytes s.par a) true 1 s
  (r.1[0], r.2)

/-- R102: WReg1. -/
def wReg1 (a : RegAddr) (v : Byte) (s : State) : State := (adcTx (wregBytes s.par a v) false 0 s).2

/-- R155: DacFrame. -/
def dacFrame (ch : DacChannel) (code : DacCode) (s : State) : State :=
  dacTx (dacBytes (dacCtrl s.par ch) code) s

/-! ### The bounded wait (R117) -/

/-- R18: how a wait ends. -/
inductive WaitOutcome where
  | ready
  | timeout
  deriving DecidableEq, Repr

/-- R34: one more poll found the level not waited for. -/
def State.countPoll (s : State) : State := s.setAcq { s.acq with pollCnt := s.acq.pollCnt + 1 }

/-- R117: the wait runs into its bound. -/
def timeOut (want : Level) (site : Site) (s : State) : WaitOutcome × State :=
  (.timeout, s.warn (.drdyTimeout site want))

/-- R117 under WAIT_MODE = POLLS, with the polls left to the bound. -/
def pollLoop (want : Level) (site : Site) : Nat → State → WaitOutcome × State
  | 0, s => timeOut want site s
  | left + 1, s =>
    if (pollDrdy s).1 = want then (.ready, (pollDrdy s).2)
    else pollLoop want site left (pollDrdy s).2.countPoll

/-- R117: `Now() - t0 >= DEADLINE_US * TICK_HZ / 10^6`. -/
def deadlinePassed (p : Params) (t0 t : Nat) : Bool :=
  decide (p.deadlineUs * p.tickHz ≤ (t - t0) * 1000000)

/-- The first tick at which the deadline of a wait begun at t0 has passed. -/
def deadlineTick (p : Params) (t0 : Nat) : Nat := t0 + (p.deadlineUs * p.tickHz + 999999) / 1000000

/-- R117 under WAIT_MODE = DEADLINE. R119 assumes a fair clock: of the readings of one wait at most
`fairBound` fall short of the deadline, and the one after them does not (log 8). -/
def deadlineLoop (want : Level) (site : Site) (t0 : Nat) : Nat → State → WaitOutcome × State
  | 0, s => timeOut want site (nowAtLeast (deadlineTick s.par t0) s).2
  | left + 1, s =>
    if deadlinePassed s.par t0 (now s).1 then timeOut want site (now s).2
    else if (pollDrdy (now s).2).1 = want then (.ready, (pollDrdy (now s).2).2)
    else deadlineLoop want site t0 left (pollDrdy (now s).2).2.countPoll

/-- R117: the wait for one level of DRDY_N, in either mode. -/
def waitFor (want : Level) (site : Site) (s : State) : WaitOutcome × State :=
  let s₁ := s.setAcq { s.acq with pollCnt := 0 }
  match s.par.waitMode with
  | .polls => pollLoop want site s.par.pollLimit s₁
  | .deadline => deadlineLoop want site (now s₁).1 s.par.fairBound (now s₁).2

/-- R117, R118: WaitReady; every caller goes on alike after READY and after TIMEOUT. -/
def waitReady (site : Site) (s : State) : State := (waitFor .low site s).2

/-- R117, R118: WaitNotReady. -/
def waitNotReady (site : Site) (s : State) : State := (waitFor .high site s).2

/-! ### Transport and reset line -/

/-- R149: Release. -/
def release (s : State) : State := (closeTransport s).setLines Lines.released

/-- R150: ResetPulse. -/
def resetPulse (s : State) : State :=
  setRst .high (delay s.par.tRstLow (setRst .low (delay s.par.tRstHigh (setRst .high s))))

/-! ### Admission (R162 to R164) -/

/-- R162: the lifecycle check of every operation that needs the handle. -/
def whenReady (s : State) (body : State → State) : State :=
  if s.hstate = .ready then body s else s.refuse .notReady

/-- R164: the argument check, which follows the lifecycle check. -/
def whenLegal (ok : Bool) (s : State) (body : State → State) : State :=
  if ok then body s else s.refuse .badArg

/-- R163, R164: the continuous-mode check, which comes last. -/
def whenNotCont (s : State) (body : State → State) : State :=
  if s.contMode then s.refuse .contMode else body s

end Sys2Proof.Machine
end

