-- ==== Sys2Proof/Machine/Codec.lean ====
section
/-! DEFINITION. The Voltage Codec (spec/44_voltage_codec.md): HOST.RAW_TO_VOLTAGE. -/

namespace Sys2Proof.Machine

/-- R144: the exact voltage of a code at a legal multiplier. -/
def voltageOf (code : Sample) (gain : Nat) (vpos vneg : Rat) : Rat :=
  ((code.toInt : Rat) / (fullScale : Rat)) * ((vpos - vneg) / (gain : Rat))

/-- HOST.RAW_TO_VOLTAGE (R144), admitted in every HSTATE. -/
def execHostRawToVoltage (code : Sample) (gain : Nat) (vpos vneg : Rat) (s : State) :
    Host.Outcome State Fault Refusal :=
  .next <| whenLegal (validGainMult gain) s fun s =>
    s.respond .ok (.voltage (answer s.par (voltageOf code gain vpos vneg)))

end Sys2Proof.Machine
end

