-- ==== Sys2Proof/Machine/Dac.lean ====
section
/-! DEFINITION. The DAC command interface (spec/47_dac.md): the two wire frames and HOST.DAC_WRITE. -/

namespace Sys2Proof.Machine

/-- DAC.WRITE_A (R155): the frame alone; the shadow register is HOST.DAC_WRITE's (R39). -/
def execDacWriteA (code : DacCode) (s : State) : Host.Outcome State Fault Refusal :=
  .next (dacFrame .a code s)

/-- DAC.WRITE_B (R155). -/
def execDacWriteB (code : DacCode) (s : State) : Host.Outcome State Fault Refusal :=
  .next (dacFrame .b code s)

/-- HOST.DAC_WRITE (R156); an index that is no channel warns and sends nothing. -/
def execHostDacWrite (ch : Int) (code : DacCode) (s : State) : Host.Outcome State Fault Refusal :=
  .next <| whenReady s fun s =>
    match dacChannel? ch with
    | some c => ((dacFrame c code s).setDac c code).respond .ok .none
    | none => (s.warn (.dacInvalidChannel ch)).respond .ok .none

end Sys2Proof.Machine
end

