-- ==== Sys2Proof/Machine/Lifecycle.lean ====
section
/-! DEFINITION. Initialisation, reset and shutdown (spec/46_lifecycle.md): HOST.INIT, HOST.RESET,
HOST.SHUTDOWN. -/

namespace Sys2Proof.Machine

/-- R151: LINES_OPEN <- true, both chip selects de-asserted. -/
def holdLines (s : State) : State :=
  s.setLines { s.lines with held := true, csAdc := .driven .high, csDac := .driven .high }

/-- R151: from the open transport to the STATUS byte that is read. -/
def identify (s : State) : Byte × State :=
  let s₁ := waitReady .init (resetPulse (holdLines s))
  rReg1 s₁.par.regStatus s₁

/-- R151: identification failed. -/
def initFailed (s : State) : State := ((release s).setHState .uninit).respond .initId .none

/-- R151, R56: identification succeeded. -/
def initDone (s : State) : State :=
  ((((s.setContMode false).setPhase .idle).setCfg Cfg.reset).setHState .ready).respond .ok .none

/-- R151: HOST.INIT once admitted. -/
def initRun (s : State) : State :=
  let o := openTransport s
  if o.1 then
    let r := identify o.2
    if chipIdOf r.2.par r.1 = r.2.par.chipId then initDone r.2 else initFailed r.2
  else (o.2.setHState .uninit).respond .initBus .none

/-- HOST.INIT (R151); refused on a READY handle (R162). -/
def execHostInit (s : State) : Host.Outcome State Fault Refusal :=
  .next (if s.hstate = .ready then s.refuse .alreadyInit else initRun s)

/-- HOST.RESET (R152). -/
def execHostReset (s : State) : Host.Outcome State Fault Refusal :=
  .next <| whenReady s fun s =>
    (waitReady .reset ((resetPulse s).setContMode false).loadDefaults).respond .ok .none

/-- HOST.SHUTDOWN (R153). -/
def execHostShutdown (s : State) : Host.Outcome State Fault Refusal :=
  .next (((if s.lines.held then release s else s).setHState .shutdown).respond .ok .none)

end Sys2Proof.Machine
end

