-- ==== Sys2Proof/Machine/RegFile.lean ====
section
/-! DEFINITION. The configuration register file (spec/45_config.md): HOST.CONFIGURE, HOST.SET_SCAN_MODE,
HOST.GET_CONFIG. -/

namespace Sys2Proof.Machine

/-- R145: the bus events of HOST.CONFIGURE. -/
def configureBus (gain : GainCode) (drate : RateIndex) (bufen : BitVec 1) (s : State) : State :=
  let s₁ := waitReady .configure s
  let s₂ := wReg1 s₁.par.regStatus (statusByte s₁.par bufen) s₁
  let s₃ := wReg1 s₂.par.regAdcon (adconByte s₂.par gain) s₂
  let s₄ := wReg1 s₃.par.regDrate (drateByte s₃.par drate) s₃
  waitReady .configure s₄

/-- R145: CFG_GAIN, CFG_DRATE and CFG_BUFEN take the operands; CFG_SCANMODE stays. -/
def State.configured (s : State) (gain : GainCode) (drate : RateIndex) (bufen : BitVec 1) : State :=
  s.setCfg { s.cfg with gain := gain, drate := drate, bufen := bufen }

/-- HOST.CONFIGURE (R145). -/
def execHostConfigure (gain : GainCode) (drate : RateIndex) (bufen : BitVec 1) (s : State) :
    Host.Outcome State Fault Refusal :=
  .next <| whenReady s fun s => whenLegal (validGainCode gain) s fun s => whenNotCont s fun s =>
    ((configureBus gain drate bufen s).configured gain drate bufen).respond .ok .none

/-- HOST.SET_SCAN_MODE (R147); admitted while CONT_MODE = 1. -/
def execHostSetScanMode (mode : ScanMode) (s : State) : Host.Outcome State Fault Refusal :=
  .next <| whenReady s fun s => (s.setCfg { s.cfg with scanMode := mode }).respond .ok .none

/-- HOST.GET_CONFIG (R148). -/
def execHostGetConfig (s : State) : Host.Outcome State Fault Refusal :=
  .next <| whenReady s fun s =>
    s.respond .ok (.config s.cfg.gain s.cfg.drate s.cfg.bufen s.cfg.scanMode)

end Sys2Proof.Machine
end

