-- ==== Sys2Proof/Machine/Command.lean ====
section
/-! DEFINITION. The Register/Command Layer (spec/40_command_layer.md): the nine ADC wire commands and the
host operations HOST.WRITE_CMD, HOST.WRITE_REG, HOST.READ_REG. -/

namespace Sys2Proof.Machine

/-! ### Wire commands (R97 to R105) -/

/-- R97. -/
def wakeupCmd (s : State) : State := sendCmd s.par.cmdWakeup s

/-- R104. -/
def syncCmd (s : State) : State := sendCmd s.par.cmdSync s

/-- R103. -/
def selfcalCmd (s : State) : State := waitReady .selfcal (sendCmd s.par.cmdSelfcal s)

/-- R99. -/
def rdatacCmd (s : State) : State := (sendCmd s.par.cmdRdatac s).setContMode true

/-- R100. -/
def sdatacCmd (s : State) : State := (sendCmd s.par.cmdSdatac s).setContMode false

/-- R105. -/
def resetCmd (s : State) : State :=
  waitReady .reset ((sendCmd s.par.cmdReset s).setContMode false).loadDefaults

/-- ADC.WAKEUP (R97). -/
def execAdcWakeup (s : State) : Host.Outcome State Fault Refusal := .next (wakeupCmd s)

/-- ADC.RDATA (R98); the sample goes to the caller, and stands in the event's response bytes. -/
def execAdcRdata (s : State) : Host.Outcome State Fault Refusal := .next (rData s).2

/-- ADC.RDATAC (R99). -/
def execAdcRdatac (s : State) : Host.Outcome State Fault Refusal := .next (rdatacCmd s)

/-- ADC.SDATAC (R100). -/
def execAdcSdatac (s : State) : Host.Outcome State Fault Refusal := .next (sdatacCmd s)

/-- ADC.RREG (R101); the value goes to the caller, and stands in the event's response byte. -/
def execAdcRreg (a : RegAddr) (s : State) : Host.Outcome State Fault Refusal := .next (rReg1 a s).2

/-- ADC.WREG (R102). -/
def execAdcWreg (a : RegAddr) (v : Byte) (s : State) : Host.Outcome State Fault Refusal :=
  .next (wReg1 a v s)

/-- ADC.SELFCAL (R103). -/
def execAdcSelfcal (s : State) : Host.Outcome State Fault Refusal := .next (selfcalCmd s)

/-- ADC.SYNC (R104). -/
def execAdcSync (s : State) : Host.Outcome State Fault Refusal := .next (syncCmd s)

/-- ADC.RESET (R105). -/
def execAdcReset (s : State) : Host.Outcome State Fault Refusal := .next (resetCmd s)

/-! ### Host operations (R107 to R109) -/

/-- R107: the wire command of an admitted byte. -/
def runCmd (c : Byte) (s : State) : State :=
  if c = s.par.cmdWakeup then wakeupCmd s
  else if c = s.par.cmdSync then syncCmd s
  else if c = s.par.cmdSelfcal then selfcalCmd s
  else if c = s.par.cmdRdatac then rdatacCmd s
  else if c = s.par.cmdSdatac then sdatacCmd s
  else if c = s.par.cmdReset then resetCmd s
  else s

/-- HOST.WRITE_CMD (R107). CONT_MODE refuses every admitted byte but SDATAC and RESET (R163). -/
def execHostWriteCmd (c : Byte) (s : State) : Host.Outcome State Fault Refusal :=
  .next <| whenReady s fun s => whenLegal (admittedCmd s.par c) s fun s =>
    if endsContMode s.par c then (runCmd c s).respond .ok .none
    else whenNotCont s fun s => (runCmd c s).respond .ok .none

/-- HOST.WRITE_REG (R108). -/
def execHostWriteReg (a : RegAddr) (v : Byte) (s : State) : Host.Outcome State Fault Refusal :=
  .next <| whenReady s fun s => whenLegal (validReg s.par a) s fun s => whenNotCont s fun s =>
    (wReg1 a v s).respond .ok .none

/-- HOST.READ_REG (R109). -/
def execHostReadReg (a : RegAddr) (s : State) : Host.Outcome State Fault Refusal :=
  .next <| whenReady s fun s => whenLegal (validReg s.par a) s fun s => whenNotCont s fun s =>
    (rReg1 a s).2.respond .ok (.value (rReg1 a s).1)

end Sys2Proof.Machine
end

