-- ==== Sys2Proof/Machine/Conversion.lean ====
section
/-! DEFINITION. The Conversion & Settling State Machine (spec/41_conversion.md R110 to R122) and
HOST.READ_CHANNEL (R124). -/

namespace Sys2Proof.Machine

/-- R114: SelectChannel, with the multiplexer byte the caller put in ACQ_MUX. -/
def selectChannel (mux : Byte) (s : State) : State :=
  (wReg1 s.par.regMux mux s).setPhase .channelSelected

/-- R115: Synchronize. -/
def synchronize (s : State) : State := (delay s.par.t11Min (syncCmd s)).setPhase .synchronized

/-- R116: Wake. -/
def wake (s : State) : State := (wakeupCmd s).setPhase .converting

/-- R120: one Ready transition observed (or timed out, R118). -/
def observeReady (site : Site) (s : State) : State :=
  let s₁ := waitReady site s
  s₁.setAcq { s₁.acq with phase := .ready, settleK := s₁.acq.settleK + 1#8 }

/-- R121: DiscardCycle, in the form SETTLE_DISCARD_READ selects. -/
def discardCycle (site : Site) (s : State) : State :=
  (if s.par.settleDiscardRead then (rData s).2 else waitNotReady site s).setPhase .converting

/-- R120: the loop of Settle, with the Ready transitions left to observe. -/
def settleLoop (site : Site) : Nat → State → State
  | 0, s => s
  | left + 1, s =>
    if left = 0 then observeReady site s
    else settleLoop site left (discardCycle site (observeReady site s))

/-- R120: Settle. -/
def settle (n : Byte) (site : Site) (s : State) : State :=
  settleLoop site n.toNat (s.setAcq { s.acq with settleN := n, settleK := 0#8 })

/-- R122: ReadPhase. The state passes through READ on its way to IDLE. -/
def readPhase (s : State) : Sample × State :=
  let r := rData s
  let s₁ := r.2.setAcq { r.2.acq with phase := .read, lastSample := some r.1 }
  (r.1, s₁.setPhase .idle)

/-- R113: the sequence of a valid index. -/
def acquireValid (op : AcqOp) (slot : Nat) (ch : Int) (n : Byte) (s : State) : Sample × State :=
  let mux := muxCode s.par s.cfg.scanMode ch
  readPhase <| settle n (.acq op slot) <| wake <| synchronize <| selectChannel mux <|
    s.setAcq { s.acq with ch := some ch, mux := some mux }

/-- R113: Acquire; an invalid index warns and yields 0 (R111). -/
def acquire (op : AcqOp) (slot : Nat) (ch : Int) (n : Byte) (s : State) : Sample × State :=
  if validCh s.cfg.scanMode ch then acquireValid op slot ch n s
  else (0#32, s.warn (.invalidChannel op slot ch))

/-- HOST.READ_CHANNEL (R124), settling count 1. -/
def execHostReadChannel (ch : Int) (s : State) : Host.Outcome State Fault Refusal :=
  .next <| whenReady s fun s => whenNotCont s fun s =>
    (acquire .readChannel 0 ch 1#8 s).2.respond .ok (.sample (acquire .readChannel 0 ch 1#8 s).1)

end Sys2Proof.Machine
end

