-- ==== Sys2Proof/Machine/Monitor.lean ====
section
/-! DEFINITION. The Performance Monitor (spec/43_perf_monitor.md): HOST.PERF_BEGIN, RecordScan,
HOST.PERF_REPORT. -/

namespace Sys2Proof.Machine

/-- R135: the monitor right after a begin call at tick t. -/
def Mon.begun (theo : Rat) (t : Nat) : Mon where
  active := true
  start := t
  theo := theo
  samples := 0
  scans := 0
  lastN := 0
  spsTotal := 0
  spsCh := 0
  eff := 0
  status := .noData

/-- R136: the counters of RecordScan. -/
def Mon.count (n : Nat) (m : Mon) : Mon :=
  { m with samples := m.samples + n, scans := m.scans + 1, lastN := n }

/-- R137: Derive(Now()). -/
def deriveNow (s : State) : State :=
  let r := now s
  r.2.setMon (r.2.mon.derive r.2.par r.1)

/-- R136: RecordScan. -/
def recordScan (n : Nat) (s : State) : State := deriveNow (s.setMon (s.mon.count n))

/-- HOST.PERF_BEGIN (R135), admitted in every HSTATE (R134). -/
def execHostPerfBegin (drate : RateIndex) (s : State) : Host.Outcome State Fault Refusal :=
  .next (((now s).2.setMon (Mon.begun (drateSps drate) (now s).1)).respond .ok .none)

/-- R139: the refresh of a report. -/
def refreshed (s : State) : State := if s.mon.active then deriveNow s else s

/-- HOST.PERF_REPORT (R139), admitted in every HSTATE (R134). -/
def execHostPerfReport (s : State) : Host.Outcome State Fault Refusal :=
  .next ((refreshed s).respond .ok (.metrics ((refreshed s).mon.report s.par)))

end Sys2Proof.Machine
end

