-- ==== Sys2Proof/Machine/Scanner.lean ====
section
/-! DEFINITION. The Multi-Channel Scanner (spec/42_scanner.md): HOST.SCAN_CHANNELS. -/

namespace Sys2Proof.Machine

/-- R125: SCAN_IDX <- i. -/
def State.setScanIdx (s : State) (i : Nat) : State := s.setScan { s.scan with idx := i }

/-- R37, R125: RESULT[i] <- v. -/
def State.setResult (s : State) (i : Nat) (v : Sample) : State :=
  s.setScan { s.scan with result := s.scan.result.setIfInBounds i (some v) }

/-- R125: one slot. -/
def scanSlot (settle : Byte) (i : Nat) (ch : Int) (s : State) : State :=
  let r := acquire .scanChannels i ch settle (s.setScanIdx i)
  r.2.setResult i r.1

/-- R125: the slots from the i-th on, in list order. -/
def scanLoop (settle : Byte) : Nat → List Int → State → State
  | _, [], s => s
  | i, ch :: rest, s => scanLoop settle (i + 1) rest (scanSlot settle i ch s)

/-- R37: RESULT[0..n-1]; none if one of the entries holds no value (R37 "a model faults on reading one; no
rule reads one"). -/
def readResults (s : State) : Nat → Option (List Sample)
  | 0 => some []
  | n + 1 =>
    match readResults s n, s.scan.result[n]? with
    | some vs, some (some v) => some (vs ++ [v])
    | _, _ => none

/-- R37: the buffer a scan starts on. An entry that the current scan has not written holds no value; an
empty scan leaves RESULT untouched (R132; log 21). -/
def resultAtStart (list : List Int) (r : Vector (Option Sample) 8) : Vector (Option Sample) 8 :=
  if list = [] then r else Vector.replicate 8 none

/-- R37, R125: SCAN_LIST, SCAN_LEN and SCAN_SETTLE take the request's fields. -/
def scanStart (list : List Int) (settle : Byte) (s : State) : State :=
  s.setScan { s.scan with
    list := list, len := list.length, settle := settle
    result := resultAtStart list s.scan.result }

/-- R125: the scan from its first slot to its record in the monitor. -/
def scanRun (list : List Int) (settle : Byte) (s : State) : State :=
  let s₁ := (scanLoop settle 0 list (scanStart list settle s)).setScanIdx list.length
  if 0 < list.length ∧ s₁.mon.active then recordScan list.length s₁ else s₁

/-- R125: the response. Reading an entry that holds no value faults (R37, R57, 93 U12 "fault (no rule does
it)"), and no scan does. -/
def scanRespond (n : Nat) (s : State) : Host.Outcome State Fault Refusal :=
  match readResults s n with
  | some vs => .next (s.respond .ok (.samples vs))
  | none => .fault .unwrittenResult

/-- HOST.SCAN_CHANNELS (R125). -/
def execHostScanChannels (list : List Int) (settle : Byte) (s : State) :
    Host.Outcome State Fault Refusal :=
  if s.hstate ≠ .ready then .next (s.refuse .notReady)
  else if maxScan < list.length then .next (s.refuse .badArg)
  else if settle = 0#8 then .next (s.refuse .badArg)
  else if s.contMode then .next (s.refuse .contMode)
  else scanRespond list.length (scanRun list settle s)

end Sys2Proof.Machine
end

