-- ==== Sys2Proof/Machine/Dispatch.lean ====
section
/-! DEFINITION. One arm per instruction. -/

namespace Sys2Proof.Machine

def exec (i : Instr) (s : State) : Host.Outcome State Fault Refusal :=
  match i with
  | .hostInit => Sys2Proof.Machine.execHostInit s
  | .hostReset => Sys2Proof.Machine.execHostReset s
  | .hostShutdown => Sys2Proof.Machine.execHostShutdown s
  | .hostConfigure gain drate bufen => Sys2Proof.Machine.execHostConfigure gain drate bufen s
  | .hostSetScanMode mode => Sys2Proof.Machine.execHostSetScanMode mode s
  | .hostGetConfig => Sys2Proof.Machine.execHostGetConfig s
  | .hostReadChannel ch => Sys2Proof.Machine.execHostReadChannel ch s
  | .hostScanChannels list settle => Sys2Proof.Machine.execHostScanChannels list settle s
  | .hostWriteCmd cmd => Sys2Proof.Machine.execHostWriteCmd cmd s
  | .hostWriteReg addr value => Sys2Proof.Machine.execHostWriteReg addr value s
  | .hostReadReg addr => Sys2Proof.Machine.execHostReadReg addr s
  | .hostDacWrite ch code => Sys2Proof.Machine.execHostDacWrite ch code s
  | .hostPerfBegin drate => Sys2Proof.Machine.execHostPerfBegin drate s
  | .hostPerfReport => Sys2Proof.Machine.execHostPerfReport s
  | .hostRawToVoltage code gain vpos vneg => Sys2Proof.Machine.execHostRawToVoltage code gain vpos vneg s
  | .adcWakeup => Sys2Proof.Machine.execAdcWakeup s
  | .adcRdata => Sys2Proof.Machine.execAdcRdata s
  | .adcRdatac => Sys2Proof.Machine.execAdcRdatac s
  | .adcSdatac => Sys2Proof.Machine.execAdcSdatac s
  | .adcRreg addr => Sys2Proof.Machine.execAdcRreg addr s
  | .adcWreg addr value => Sys2Proof.Machine.execAdcWreg addr value s
  | .adcSelfcal => Sys2Proof.Machine.execAdcSelfcal s
  | .adcSync => Sys2Proof.Machine.execAdcSync s
  | .adcReset => Sys2Proof.Machine.execAdcReset s
  | .dacWriteA code => Sys2Proof.Machine.execDacWriteA code s
  | .dacWriteB code => Sys2Proof.Machine.execDacWriteB code s

end Sys2Proof.Machine
end

