-- ==== Sys2Proof/Machine/Port.lean ====
section
/-! DEFINITION. Where a step finds its instruction: the request port (spec/30_encoding.md R78), the
requests the host has still to issue (R194), and the model's wire slot (log 2, 5). -/

namespace Sys2Proof.Machine

/-- R19, R78: an empty port takes the next request of the host's script. -/
def State.accept (s : State) : State :=
  match s.reqPort, s.hostScript with
  | none, r :: rest => { s with reqPort := some r, hostScript := rest }
  | _, _ => s

/-- R78: a request is consumed exactly once. -/
def State.consume (s : State) : State := { s with reqPort := none }

/-- The wire slot's frame is consumed once. -/
def State.clearWire (s : State) : State := { s with wireSlot := none }

/-- Put a raw form where the next step reads it. -/
def State.place (s : State) : Frame → State
  | .host r => { s with reqPort := some r, wireSlot := none }
  | .wire f => { s with wireSlot := some f }

/-- R194: what a run shows: the responses, WARN_LOG and TRACE. -/
def State.observation (s : State) : List Response × List Warning × List Event :=
  (s.responses, s.warnLog, s.trace)

end Sys2Proof.Machine
end

