-- ==== Sys2Proof/Machine/Step.lean ====
section
/-! DEFINITION. One step: one host operation, from the request port to its response (spec/00_scope.md
R11, R19), or one frame of the wire slot (log 5). -/

namespace Sys2Proof.Machine

/-- A step. A frame in the wire slot is a command layer transaction by itself (log 5). Else the request
on the port, which an empty port takes from the host's script (R19, R78), is consumed once and run; a tag
that spells no operation is answered E_BAD_OP (R82); with no request the block does nothing (R176). -/
def step (s : State) : Host.Outcome State Fault Refusal :=
  match s.wireSlot with
  | some f =>
    match decodeWire s.par f with
    | .ok i => exec i s.clearWire
    | .error e => .refused (.notAFrame e)
  | none =>
    match s.accept.reqPort with
    | none => .next s.accept
    | some r =>
      match decodeRequest r with
      | .ok i => exec i s.accept.consume
      | .error _ => .next (s.accept.consume.refuse .badOp)

/-- The state with a word of spec/opcode_table.json where the next step reads its instruction: a host
row's request on the request port, a wire row's frame in the wire slot (log 2, 5, 6). -/
def State.withFetchWord (s : State) (nbits w : Nat) : State := s.place (tableFrame s.par nbits w)

end Sys2Proof.Machine
end

