-- ==== Sys2Proof/Machine/Trace.lean ====
section
/-! DEFINITION. What the trace shows (spec/10_state.md R47): the bytes on the data-out line, the time each
event takes at least (spec/70_reset_and_hazards.md R193), which event is which of the transactions of
spec/20_memory.md R66, and which events the block may emit at all. Observers only: no step reads them. -/

namespace Sys2Proof.Machine

/-- R14: the bytes shifted out under a transaction's chip select, FILL_BYTE while bytes come in. -/
def Event.dataOut (p : Params) : Event → List Byte
  | .tx _ out _ inp => out ++ List.replicate inp.length p.fillByte
  | .poll _ | .delay _ | .rst _ | .opened _ | .closed => []

/-- R14, R16, R193: the time an event takes at least. -/
def Event.minTime (p : Params) : Event → Rat
  | .tx _ _ gap _ => if gap then p.t6Min else 0
  | .delay t => t
  | .poll _ | .rst _ | .opened _ | .closed => 0

/-- R193: the time a trace takes at least. -/
def minTime (p : Params) (tr : List Event) : Rat := (tr.map (Event.minTime p)).sum

/-! ### Which event is which (R66) -/

/-- One byte out, nothing in. -/
def Event.isCmd (c : Byte) (e : Event) : Bool := e == .tx .adc [c] false []

/-- R98: an RDATA transaction. -/
def Event.isRdata (p : Params) : Event → Bool
  | .tx .adc out true inp => out == [p.cmdRdata] && inp.length == 3
  | _ => false

/-- R101: an RREG transaction of one register. -/
def Event.isRreg (p : Params) : Event → Bool
  | .tx .adc [first, count] true inp =>
    hiNibble first == hiNibble p.cmdRreg && decide ((loNibble first).toNat < p.regCount) &&
      count == countByte && inp.length == 1
  | _ => false

/-- R102: a WREG transaction of one register. -/
def Event.isWreg (p : Params) : Event → Bool
  | .tx .adc [first, count, _] false [] =>
    hiNibble first == hiNibble p.cmdWreg && decide ((loNibble first).toNat < p.regCount) &&
      count == countByte
  | _ => false

/-- R114: a WREG transaction of the multiplexer register. -/
def Event.isMuxWrite (p : Params) : Event → Bool
  | .tx .adc [first, count, _] false [] => first == regOpByte p.cmdWreg p.regMux && count == countByte
  | _ => false

/-- R155: a DAC transaction. -/
def Event.isDac (p : Params) : Event → Bool
  | .tx .dac [ctrl, _, _] false [] => ctrl == p.dacCtrlA || ctrl == p.dacCtrlB
  | _ => false

/-- R16: a poll that found the given level. -/
def Event.isPoll (l : Level) (e : Event) : Bool := e == .poll l

/-- R66, R93: a bus event the block may emit: a transaction of R66's table with its own gap and byte
counts, a poll, one of the delays of R74, or a line event. -/
def Event.legal (p : Params) (e : Event) : Bool :=
  match e with
  | .tx .adc _ _ _ => p.hostCmds.any (fun c => e.isCmd c) || e.isRdata p || e.isRreg p || e.isWreg p
  | .tx .dac _ _ _ => e.isDac p
  | .delay t => t == p.t11Min || t == p.tRstHigh || t == p.tRstLow
  | .poll _ | .rst _ | .opened _ | .closed => true

/-- How many events of a trace satisfy a test. -/
def countEvents (f : Event → Bool) (tr : List Event) : Nat := tr.countP f

/-- R46: a warning record of a timed-out wait. -/
def Warning.isTimeout : Warning → Bool
  | .drdyTimeout _ _ => true
  | .invalidChannel _ _ _ | .dacInvalidChannel _ => false

end Sys2Proof.Machine
end

