-- ==== Sys2Proof/Machine/ChipRef.lean ====
section
/-! DEFINITION. The optional chip reference model of spec/10_state.md R53 with the register map of R48 to
R52 and the side effects of spec/20_memory.md R69, as an observer of the trace (log 16). No step reads
it: the block's rules depend on no chip answer (spec/00_scope.md R21). What the observer cannot know (a
byte the chip chose, a level that may have moved) is `none`, and any answer fits it. -/

namespace Sys2Proof.Machine

/-- What the trace shows of the ADC chip. -/
structure Chip where
  status : Byte
  mux : Byte
  adcon : Byte
  drate : Byte
  io : Byte
  /-- OFC0..2 and FSC0..2 at their addresses; `none` is a byte the chip chose (log 27). -/
  cal : Vector (Option Byte) 16
  /-- The conversion code, as far as no conversion can have replaced it. -/
  code : Option (BitVec 24)
  /-- The DRDY_N level, until a conversion that completes takes it to 0. -/
  drdy : Option Level
  /-- A self-calibration that may still run: no DRDY_N = 0 has been seen since it began (R103). -/
  calibrating : Bool
  /-- Between SYNC and WAKEUP (R53, R104). -/
  halted : Bool
  /-- Continuous-read mode. -/
  cont : Bool
  deriving DecidableEq, Repr

/-- R48, R105, R178: the reset values, outside continuous-read mode; the calibration words are chip-specific
(R57, U17). R105 and R178 name only the registers and continuous-read mode: that a reset also ends a halt
left by SYNC is the model's choice, and a self-calibration may run after it (log 31). -/
def Chip.afterReset : Chip where
  status := 0x31#8
  mux := 0x01#8
  adcon := 0x20#8
  drate := 0xF0#8
  io := 0xE0#8
  cal := Vector.replicate 16 none
  code := none
  drdy := some .high
  calibrating := true
  halted := false
  cont := false

/-! ### Conversions and calibrations -/

/-- R69: the conversion restarts. Whether that takes a low DRDY_N to 1 is open (log 28). -/
def Chip.restart (c : Chip) : Chip := { c with code := none, drdy := none }

/-- R69, R103: a self-calibration begins, with DRDY_N at 1 until it completes (log 28); the calibration words
become the chip's own (log 27). -/
def Chip.calibrate (c : Chip) : Chip :=
  { c.restart with cal := Vector.replicate 16 none, drdy := some .high, calibrating := true }

/-- R69: a calibration begins if STATUS.ACAL is set. -/
def Chip.autoCalibrate (acal : Bool) (c : Chip) : Chip := if acal then c.calibrate else c

/-- R49: STATUS.ACAL. -/
def acalOf (status : Byte) : Bool := status[2]

/-! ### Registers -/

/-- R49: bits 3:1 of STATUS are writable, ID and DRDY are read-only. -/
def statusWritten (old new : Byte) : Byte := (old &&& 0xF1#8) ||| (new &&& 0x0E#8)

/-- R53, R69: a register write. STATUS, MUX, ADCON and DRATE restart the conversion, and with ACAL = 1
(before or after a write of STATUS, log 27) ADCON, DRATE and STATUS start a self-calibration. A
calibration word written while a calibration may still run stays unknown. -/
def Chip.writeReg (p : Params) (a : RegAddr) (v : Byte) (c : Chip) : Chip :=
  if a = p.regStatus then
    ({ c with status := statusWritten c.status v }.restart).autoCalibrate (acalOf c.status || acalOf v)
  else if a = p.regMux then { c with mux := v }.restart
  else if a = p.regAdcon then ({ c with adcon := v }.restart).autoCalibrate (acalOf c.status)
  else if a = p.regDrate then ({ c with drate := v }.restart).autoCalibrate (acalOf c.status)
  else if a = p.regIo then { c with io := v }
  else if a ∈ p.calRegs ∧ c.calibrating = false then { c with cal := c.cal.set a.toNat (some v) }
  else c

/-- Whether an unknown value, or this one, is what was read. -/
def fits {α : Type} [DecidableEq α] (known : Option α) (v : α) : Bool :=
  match known with
  | some u => u == v
  | none => true

/-- A conversion or a calibration may complete on its own: not while halted, but a calibration completes
there too (R53, R103; log 28). -/
def Chip.running (c : Chip) : Bool := !c.halted || c.calibrating

/-- DRDY_N can be at a level: at the level it is known to have, or at 0 by a completion (R53). The spec does
not say what the line does in continuous-read mode, so either level fits there (log 28). -/
def Chip.mayBe (c : Chip) (l : Level) : Bool := c.cont || fits c.drdy l || (l == .low && c.running)

/-- What seeing a DRDY_N level shows: a low one ends a self-calibration (R103), and a new one may be another
conversion's. -/
def Chip.seeLevel (c : Chip) (l : Level) : Chip :=
  { c with
    drdy := if c.cont then none else some l
    calibrating := c.calibrating && l == .high }

/-- R53: whether a register read of this value is the chip's: register a, with STATUS[0] the DRDY_N level.
Of ADCON's reserved bit 7 (R51) a 1 is the chip's only if it was written, and a 0 always is (log 29). -/
def Chip.mayRead (p : Params) (a : RegAddr) (v : Byte) (c : Chip) : Bool :=
  if a = p.regStatus then
    v.extractLsb' 1 7 == c.status.extractLsb' 1 7 && c.mayBe (if v[0] then .high else .low)
  else if a = p.regMux then v == c.mux
  else if a = p.regAdcon then v.extractLsb' 0 7 == c.adcon.extractLsb' 0 7 && (!v[7] || c.adcon[7])
  else if a = p.regDrate then v == c.drate
  else if a = p.regIo then v == c.io
  else fits c.cal[a.toNat] v

/-- What a register read shows: the DRDY_N level in STATUS[0], or a calibration word that stands still. -/
def Chip.learn (p : Params) (a : RegAddr) (v : Byte) (c : Chip) : Chip :=
  if a = p.regStatus then c.seeLevel (if v[0] then .high else .low)
  else if a ∈ p.calRegs ∧ c.calibrating = false then { c with cal := c.cal.set a.toNat (some v) }
  else c

/-! ### The conversion code -/

/-- The code three response bytes spell: with STATUS.ORDER = 1 the chip sends the least significant byte
first (R62, I9). -/
def Chip.codeOf (c : Chip) (b0 b1 b2 : Byte) : BitVec 24 :=
  if c.status[3] then b2 ++ b1 ++ b0 else b0 ++ b1 ++ b2

/-- R53: an RDATA returns the current code and takes DRDY_N to 1. While the chip runs, a conversion may
complete at any time after and replace the code. -/
def Chip.readCode (v : BitVec 24) (c : Chip) : Chip :=
  { c with code := if c.running then none else some v, drdy := some .high }

/-! ### The trace -/

/-- R53, R69, R99, R104: what one ADC command with these response bytes does to the chip. In
continuous-read mode WREG and RREG are ignored (R191; log 30). SYNC leaves the chip halted until WAKEUP;
whether it moves DRDY_N is open, on a chip already halted too (log 28). WAKEUP does nothing to a chip that converts (R97), and
SDATAC nothing to one that is not in continuous-read mode (R100). -/
def Chip.command (p : Params) (c : Chip) (inp : List Byte) : Instr → Chip
  | .adcReset => Chip.afterReset
  | .adcWreg a v => if c.cont then c else c.writeReg p a v
  | .adcRreg a =>
    match inp with
    | [v] => if c.cont then c else c.learn p a v
    | _ => c
  | .adcRdata =>
    match inp with
    | [b0, b1, b2] => if c.cont then c else c.readCode (c.codeOf b0 b1 b2)
    | _ => c
  | .adcRdatac => { c.restart with cont := true }
  | .adcSdatac => if c.cont then { c.restart with cont := false } else c
  | .adcSelfcal => c.calibrate
  | .adcSync => { c with drdy := none, halted := true }
  | .adcWakeup => if c.halted then { c.restart with halted := false } else c
  | .dacWriteA _ | .dacWriteB _ | .hostInit | .hostReset | .hostShutdown
  | .hostConfigure _ _ _ | .hostSetScanMode _ | .hostGetConfig | .hostReadChannel _
  | .hostScanChannels _ _ | .hostWriteCmd _ | .hostWriteReg _ _ | .hostReadReg _ | .hostDacWrite _ _
  | .hostPerfBegin _ | .hostPerfReport | .hostRawToVoltage _ _ _ _ => c

/-- What one bus event does to the chip: the reset line low resets it (R178), an ADC frame is its
command, a poll shows DRDY_N. -/
def Chip.see (p : Params) (c : Chip) : Event → Chip
  | .rst .low => Chip.afterReset
  | .tx .adc out _ inp =>
    match decodeAdc p out with
    | .ok i => c.command p inp i
    | .error _ => c
  | .poll l => c.seeLevel l
  | .rst .high | .tx .dac _ _ _ | .delay _ | .opened _ | .closed => c

/-- The chip after a trace, from its reset values (log 16). -/
def chipAfter (p : Params) (tr : List Event) : Chip := tr.foldl (Chip.see p) Chip.afterReset

/-- R53: whether the answers in one event are ones the reference chip gives: a level DRDY_N can have, the
register that is read, the current code. In continuous-read mode the chip ignores register commands and
shifts data unprompted (R191), so any response bytes fit there, where R53 alone would have an RREG return
the register (log 30). -/
def Chip.answers (p : Params) (c : Chip) : Event → Bool
  | .poll l => c.mayBe l
  | .tx .adc out _ inp =>
    match decodeAdc p out, inp with
    | .ok (.adcRreg a), [v] => c.cont || c.mayRead p a v
    | .ok .adcRdata, [b0, b1, b2] => c.cont || fits c.code (c.codeOf b0 b1 b2)
    | _, _ => true
  | .tx .dac _ _ _ | .rst _ | .delay _ | .opened _ | .closed => true

/-- R53: a trace whose every answer is the reference chip's. -/
def chipConsistent (p : Params) : Chip → List Event → Bool
  | _, [] => true
  | c, e :: rest => c.answers p e && chipConsistent p (c.see p e) rest

/-! ### The configuration register file (R70) -/

/-- R49, R51: the STATUS_BYTE and ADCON_BYTE tables put BUFEN and PGA where this chip has them. -/
def fitsChip (p : Params) : Bool :=
  (p.statusByte[0].extractLsb' 1 1 == 0#1 && p.statusByte[1].extractLsb' 1 1 == 1#1) &&
    (List.finRange 8).all fun g => p.adconByte[g].extractLsb' 0 3 == BitVec.ofFin g

/-- R70: the configuration register file describes the chip's STATUS.BUFEN, ADCON.PGA and DRATE. -/
def Cfg.describes (p : Params) (cfg : Cfg) (c : Chip) : Bool :=
  c.status.extractLsb' 1 1 == cfg.bufen && c.adcon.extractLsb' 0 3 == cfg.gain &&
    c.drate == drateByte p cfg.drate

end Sys2Proof.Machine
end

