-- ==== Sys2Proof/Safety.lean ====
section
/-! DEFINITION. The terms claims are stated in: what the events and warnings of a wait, a settling, an
acquisition and a scan look like (spec/41_conversion.md, spec/42_scanner.md), and the invariants of a safe
state. -/

namespace Sys2Proof.Machine

/-! ### The events an operation appends -/

/-- R117: what one wait for a level appends to TRACE and WARN_LOG, with the count POLL_CNT ends at. The
polls read the other level until one reads the level (no warning), or until the bound (one warning); under
POLLS the bound is POLL_LIMIT polls. -/
def WaitShape (p : Params) (want : Level) (site : Site) (k : Nat) (evs : List Event)
    (ws : List Warning) : Prop :=
  (evs = List.replicate k (.poll want.other) ++ [.poll want] ∧ ws = [] ∧
    (p.waitMode = .polls → k < p.pollLimit)) ∨
  (evs = List.replicate k (.poll want.other) ∧ ws = [.drdyTimeout site want] ∧
    (p.waitMode = .polls → k = p.pollLimit))

/-- R98: the event of an RDATA that read these bytes. -/
def rdataEvent (p : Params) (b0 b1 b2 : Byte) : Event := .tx .adc [p.cmdRdata] true [b0, b1, b2]

/-- R102: the event of a WREG. -/
def wregEvent (p : Params) (a : RegAddr) (v : Byte) : Event := .tx .adc (wregBytes p a v) false []

/-- R96: the event of a one-byte command. -/
def cmdEvent (c : Byte) : Event := .tx .adc [c] false []

/-- R155: the event of a DAC frame. -/
def dacEvent (p : Params) (ch : DacChannel) (code : DacCode) : Event :=
  .tx .dac (dacBytes (dacCtrl p ch) code) false []

/-- R121: what one discarded settling cycle appends. -/
def DiscardShape (p : Params) (site : Site) (evs : List Event) (ws : List Warning) : Prop :=
  if p.settleDiscardRead then ∃ b0 b1 b2, evs = [rdataEvent p b0 b1 b2] ∧ ws = []
  else ∃ k, WaitShape p .high site k evs ws

/-- R120: what a settling of n Ready transitions appends: n waits, a discarded cycle between two. -/
def SettleShape (p : Params) (site : Site) : Nat → List Event → List Warning → Prop
  | 0, evs, ws => evs = [] ∧ ws = []
  | 1, evs, ws => ∃ k, WaitShape p .low site k evs ws
  | n + 2, evs, ws => ∃ k e₁ w₁ e₂ w₂ e₃ w₃, WaitShape p .low site k e₁ w₁ ∧
      DiscardShape p site e₂ w₂ ∧ SettleShape p site (n + 1) e₃ w₃ ∧
      evs = e₁ ++ e₂ ++ e₃ ∧ ws = w₁ ++ w₂ ++ w₃

/-- R114 to R116: the events from the channel's selection to the wake command. -/
def selectEvents (p : Params) (m : ScanMode) (ch : Int) : List Event :=
  [wregEvent p p.regMux (muxCode p m ch), cmdEvent p.cmdSync, .delay p.t11Min, cmdEvent p.cmdWakeup]

/-- R111, R113: what an acquisition appends and the sample it yields. -/
def AcqShape (p : Params) (m : ScanMode) (op : AcqOp) (slot : Nat) (ch : Int) (n : Nat)
    (evs : List Event) (ws : List Warning) (v : Sample) : Prop :=
  if validCh m ch then
    ∃ e b0 b1 b2, SettleShape p (.acq op slot) n e ws ∧
      evs = selectEvents p m ch ++ e ++ [rdataEvent p b0 b1 b2] ∧ v = rawSample b0 b1 b2
  else evs = [] ∧ ws = [.invalidChannel op slot ch] ∧ v = 0#32

/-- R125 to R129: what the slots from the i-th on append and the samples they yield, in list order. -/
def ScanShape (p : Params) (m : ScanMode) (n : Nat) :
    Nat → List Int → List Event → List Warning → List Sample → Prop
  | _, [], evs, ws, vs => evs = [] ∧ ws = [] ∧ vs = []
  | i, ch :: rest, evs, ws, vs => ∃ e₁ w₁ v e₂ w₂ vs', AcqShape p m .scanChannels i ch n e₁ w₁ v ∧
      ScanShape p m n (i + 1) rest e₂ w₂ vs' ∧ evs = e₁ ++ e₂ ∧ ws = w₁ ++ w₂ ∧ vs = v :: vs'

/-- R131, R133: one wait of a scan's settling: the level waited for and what it appends. -/
structure ScanWait where
  level : Level
  evs : List Event
  ws : List Warning
  deriving DecidableEq, Repr

/-- R117: a wait of a scan's slot appends what a wait for its level can. -/
def ScanWait.Shape (p : Params) (w : ScanWait) : Prop :=
  ∃ slot k, WaitShape p w.level (.acq .scanChannels slot) k w.evs w.ws

/-- R150: the events of a reset pulse. -/
def resetPulseEvents (p : Params) : List Event :=
  [.rst .high, .delay p.tRstHigh, .rst .low, .delay p.tRstLow, .rst .high]

/-- The part of the oracle a wait may draw from: levels, and ticks that never fall. -/
def Oracle.WaitDraws (o o' : Oracle) : Prop :=
  o'.opens = o.opens ∧ o'.opensDrawn = o.opensDrawn ∧ o'.bytes = o.bytes ∧
    o'.bytesDrawn = o.bytesDrawn ∧ o.lastTick ≤ o'.lastTick

/-! ### Invariants of a safe state -/

/-- R24, R25, R26, R33, R34, R36, R44: between operations the conversion machine is idle, the transport is
held exactly while READY, held lines are de-asserted and others released, the gain code is a gain, the last
settling is complete, the scan registers agree, and the poll count is within its bound. -/
structure ControlInv (s : State) : Prop where
  idle : s.acq.phase = .idle
  held_iff_ready : s.lines.held = true ↔ s.hstate = .ready
  heldLines : s.lines.held = true →
    s.lines.csAdc = .driven .high ∧ s.lines.csDac = .driven .high ∧ s.lines.rst = .driven .high
  releasedLines : s.lines.held = false → s.lines = Lines.released
  gainLegal : s.cfg.gain ≠ 7#3
  settled : s.acq.settleK = s.acq.settleN
  scanLen : s.scan.len = s.scan.list.length
  scanBound : s.scan.len ≤ maxScan
  scanDone : s.scan.idx = s.scan.len
  pollBound : s.par.waitMode = .polls → s.acq.pollCnt ≤ s.par.pollLimit

/-- R90: the range of a sign-extended 24-bit code. -/
def InSampleRange (v : Sample) : Prop := -8388608 ≤ v.toInt ∧ v.toInt ≤ 8388607

/-- R37, R38, R57, R89, R90: the last scan's entries are written and, unless it was empty, the others hold no
value, every sample the block holds is a
sign-extended 24-bit code, and ACQ_MUX is the multiplexer byte of ACQ_CH. -/
structure SampleInv (s : State) : Prop where
  scanBound : s.scan.len ≤ maxScan
  written : ∀ i : Fin 8, i.val < s.scan.len → s.scan.result[i] ≠ none
  beyond : 0 < s.scan.len → ∀ i : Fin 8, s.scan.len ≤ i.val → s.scan.result[i] = none
  resultRange : ∀ (i : Fin 8) v, s.scan.result[i] = some v → InSampleRange v
  lastRange : ∀ v, s.acq.lastSample = some v → InSampleRange v
  muxOfChannel : ∀ ch, s.acq.ch = some ch →
    ∃ m, validCh m ch = true ∧ s.acq.mux = some (muxCode s.par m ch)
  writtenTogether : (s.acq.ch = none ↔ s.acq.mux = none) ∧ (s.acq.ch = none ↔ s.acq.lastSample = none)

/-- R40, R41, R134 to R140: the monitor is untouched until a begin call, its counters agree, and its
derived fields are those of its counters at a clock answer since the begin call (R137). -/
structure MonInv (s : State) : Prop where
  untouched : s.mon.active = false → s.mon = Mon.reset
  startPast : s.mon.start ≤ s.oracle.lastTick
  theoOfTable : s.mon.active = true → ∃ i, s.mon.theo = drateSps i
  scans_le : s.mon.scans ≤ s.mon.samples
  samples_le : s.mon.samples ≤ maxScan * s.mon.scans
  lastN_zero : s.mon.lastN = 0 ↔ s.mon.scans = 0
  lastN_le : s.mon.lastN ≤ s.mon.samples
  noSamples : s.mon.samples = 0 → s.mon.spsTotal = 0 ∧ s.mon.spsCh = 0 ∧ s.mon.eff = 0
  totalRate : 0 < s.mon.samples → ∃ tick, s.mon.start ≤ tick ∧ tick ≤ s.oracle.lastTick ∧
    s.mon.spsTotal = spsTotalAt s.par s.mon tick
  perChannel : 0 < s.mon.lastN → s.mon.spsCh = s.mon.spsTotal / s.mon.lastN
  efficiency : 0 < s.mon.theo → s.mon.eff = s.mon.spsCh / s.mon.theo * 100
  classified : s.mon.status = classify s.par s.mon.samples s.mon.eff

/-- R159: a warning record the block may append. -/
def Warning.Legal (p : Params) : Warning → Prop
  | .drdyTimeout site level =>
    (∀ op slot, site = .acq op slot → slot < maxScan ∧ (op = .readChannel → slot = 0)) ∧
    (level = .high → p.settleDiscardRead = false ∧ ∃ slot, site = .acq .scanChannels slot)
  | .invalidChannel op slot index =>
    slot < maxScan ∧ (op = .readChannel → slot = 0) ∧ ¬(0 ≤ index ∧ index < 4)
  | .dacInvalidChannel index => index ≠ 0 ∧ index ≠ 1

/-- R66, R79, R93, R159: the parameters are sound, every bus event is one the block may emit, every
warning record one it may append, and a response carries a payload only with OK. -/
structure LogInv (s : State) : Prop where
  params : s.par.wf = true
  events : ∀ e ∈ s.trace, e.legal s.par = true
  warnings : ∀ w ∈ s.warnLog, w.Legal s.par
  payloads : ∀ r ∈ s.responses, r.status ≠ .ok → r.payload = .none

/-- R35, R99, R191: on a READY handle CONT_MODE says whether the chip of the trace is in continuous-read
mode. -/
def ContInv (s : State) : Prop :=
  s.par.wf = true ∧ (s.hstate = .ready → (chipAfter s.par s.trace).cont = s.contMode)

/-! ### Admission (R162 to R164) -/

/-- R162: the operations that need a READY handle. -/
def needsHandle : Instr → Bool
  | .hostReset | .hostConfigure _ _ _ | .hostSetScanMode _ | .hostGetConfig | .hostReadChannel _
  | .hostScanChannels _ _ | .hostWriteCmd _ | .hostWriteReg _ _ | .hostReadReg _ | .hostDacWrite _ _ => true
  | .hostInit | .hostShutdown | .hostPerfBegin _ | .hostPerfReport | .hostRawToVoltage _ _ _ _
  | .adcWakeup | .adcRdata | .adcRdatac | .adcSdatac | .adcRreg _ | .adcWreg _ _ | .adcSelfcal
  | .adcSync | .adcReset | .dacWriteA _ | .dacWriteB _ => false

/-- R163: the operations that CONT_MODE = 1 refuses. -/
def needsQuiet (p : Params) : Instr → Bool
  | .hostConfigure _ _ _ | .hostReadChannel _ | .hostScanChannels _ _ | .hostWriteReg _ _
  | .hostReadReg _ => true
  | .hostWriteCmd cmd => cmd != p.cmdSdatac && cmd != p.cmdReset
  | .hostReset | .hostSetScanMode _ | .hostGetConfig | .hostDacWrite _ _ | .hostInit | .hostShutdown
  | .hostPerfBegin _ | .hostPerfReport | .hostRawToVoltage _ _ _ _ | .adcWakeup | .adcRdata | .adcRdatac
  | .adcSdatac | .adcRreg _ | .adcWreg _ _ | .adcSelfcal | .adcSync | .adcReset | .dacWriteA _
  | .dacWriteB _ => false

/-- R162 to R164: the refusal a host operation's request meets in a state, the first in the order
lifecycle, argument, continuous mode; none if it is admitted. -/
def refusalOf (s : State) (i : Instr) : Option Status :=
  if i = .hostInit ∧ s.hstate = .ready then some .alreadyInit
  else if needsHandle i ∧ s.hstate ≠ .ready then some .notReady
  else if i.wellFormed s.par = false then some .badArg
  else if needsQuiet s.par i ∧ s.contMode then some .contMode
  else none

/-- R25, R169: the lifecycle's moves between two host operations. -/
def HState.Moves (i : Instr) (h h' : HState) : Prop :=
  h' = h ∨ (i = .hostInit ∧ h ≠ .ready ∧ (h' = .ready ∨ h' = .uninit)) ∨
    (i = .hostShutdown ∧ h' = .shutdown)

end Sys2Proof.Machine
end

