-- ==== Sys2Proof/Certificates/Slice0/Obligations.lean ====
section
/-! DEFINITION. The statements about the model, for the provers. A docstring names the rules a statement
formalises and the log entries it rests on. -/

open Sys2Proof Sys2Proof.Machine

/-! ### Encoding -/

/-- Every well-formed instruction is what its own encoding decodes to, on both interfaces, whatever the
parameters (R80, R83, R85, R87, R88; the request's typed record is log 12). -/
def Obligations.DecodeEncodeRoundTrip : Prop :=
  ∀ (p : Params) (i : Instr), p.wf = true → i.wellFormed p = true → decode p (encode p i) = .ok i

/-- A wire frame that decodes is, byte for byte, the frame of its instruction, and that instruction is a
well-formed wire command: no bit of a frame is ignored (R83, R84, R88, R93). -/
def Obligations.WireFramesAreCanonical : Prop :=
  ∀ (p : Params) (f : WireFrame) (i : Instr), p.wf = true → decodeWire p f = .ok i →
    encode p i = .wire f ∧ i.wellFormed p = true ∧ i.isHost = false

/-- A register frame that decodes moves one register of 0x0..0xA with a zero upper count nibble; a DAC frame
that decodes has one of the two control bytes; the chip's further command bytes do not decode. R86 and R93
say that the block never emits the others; that they do not DECODE is the model's deduction (log 17 for
register frames, log 15 for DAC frames). -/
def Obligations.NeverEmittedFramesAreRejected : Prop :=
  (∀ (p : Params) (first count : Byte) (rest : List Byte) (i : Instr), p.wf = true →
    (hiNibble first = hiNibble p.cmdRreg ∨ hiNibble first = hiNibble p.cmdWreg) →
    decodeAdc p (first :: count :: rest) = .ok i →
    count = 0x00#8 ∧ (loNibble first).toNat < p.regCount) ∧
  (∀ (p : Params) (ctrl : Byte) (rest : List Byte) (i : Instr), decodeDac p (ctrl :: rest) = .ok i →
    ctrl = p.dacCtrlA ∨ ctrl = p.dacCtrlB) ∧
  (∀ b ∈ [0xF1#8, 0xF2#8, 0xF3#8, 0xF4#8, 0xFD#8, 0xFF#8],
    decodeAdc Params.default [b] = .error (.notEmitted b))

/-- Words written out from the tables of R80, R85 and R87 decode to the instructions they stand for. That the
8-bit word 0x01 is HOST.INIT and not ADC.RDATA, and how a table word's bytes are laid out, is the model's
choice (log 6). -/
def Obligations.SampleWordsDecode : Prop :=
  decodeTableWord 8 0x01 = some .hostInit ∧
  decodeTableWord 8 0x60 = some (.hostRawToVoltage 0#32 0 0 0) ∧
  decodeTableWord 8 0xFC = some .adcSync ∧
  decodeTableWord 16 0x0013 = some (.adcRreg 3#4) ∧
  decodeTableWord 24 0xE00054 = some (.adcWreg 4#4 0xE0#8) ∧
  decodeTableWord 24 0x008034 = some (.dacWriteB 0x8000#16)

/-- R80, R82: exactly the fifteen tags spell an operation, and a request with any other tag, on the port or
taken from the host's script by an empty port (R19, R78; log 2), is answered (E_BAD_OP, none), consumed,
and changes nothing else. -/
def Obligations.UnknownTagAnswersBadOp : Prop :=
  (∀ r : Request, (∃ i, decodeRequest r = .ok i) ↔ r.op ∈ hostTags) ∧
  (∀ (s : State) (r : Request), s.wireSlot = none → s.reqPort = some r → r.op ∉ hostTags →
    step s = .next { s with reqPort := none, responses := s.responses ++ [⟨.badOp, .none⟩] }) ∧
  (∀ (s : State) (r : Request) (rest : List Request), s.wireSlot = none → s.reqPort = none →
    s.hostScript = r :: rest → r.op ∉ hostTags →
    step s = .next { s with
      reqPort := none, hostScript := rest, responses := s.responses ++ [⟨.badOp, .none⟩] })

/-- R95: each of the pseudo-operations is its core operation with these operands; R94: a gain written as its
multiplier and a rate written as its SPS value are their code and index. -/
def Obligations.PseudoOperationsExpand : Prop :=
  ∀ (p : Params) (l : List Int) (c : DacCode) (b : BitVec 1),
    Pseudo.expand p (.scanFast l) = some (.hostScanChannels l 1#8) ∧
    Pseudo.expand p (.scanOptimized l) = some (.hostScanChannels l p.optN) ∧
    Pseudo.expand Params.default .cmdWakeup = some (.hostWriteCmd 0x00#8) ∧
    Pseudo.expand Params.default .cmdSync = some (.hostWriteCmd 0xFC#8) ∧
    Pseudo.expand Params.default .cmdSelfcal = some (.hostWriteCmd 0xF0#8) ∧
    Pseudo.expand Params.default .cmdRdatac = some (.hostWriteCmd 0x03#8) ∧
    Pseudo.expand Params.default .cmdSdatac = some (.hostWriteCmd 0x0F#8) ∧
    Pseudo.expand Params.default .cmdReset = some (.hostWriteCmd 0xFE#8) ∧
    Pseudo.expand p (.dacA c) = some (.hostDacWrite 0 c) ∧
    Pseudo.expand p (.dacB c) = some (.hostDacWrite 1 c) ∧
    (∀ g : GainCode, ∀ m, gainMult g = some m →
      ∀ j, Pseudo.expand p (.configure m (drateSps j) b) = some (.hostConfigure g j b)) ∧
    ∀ j, Pseudo.expand p (.perfBegin (drateSps j)) = some (.hostPerfBegin j)

/-! ### Step -/

/-- A step runs the decoded instruction: the wire slot's frame first (log 5), else the request on the
port, consumed once (R19, R78), which an empty port takes from the host's script (log 2); with no request
the block does nothing (R176). -/
def Obligations.StepRunsDecodedInstruction : Prop :=
  (∀ (s : State) (f : WireFrame) (i : Instr), s.wireSlot = some f → decodeWire s.par f = .ok i →
    step s = exec i { s with wireSlot := none }) ∧
  (∀ (s : State) (r : Request) (i : Instr), s.wireSlot = none → s.reqPort = some r →
    decodeRequest r = .ok i → step s = exec i { s with reqPort := none }) ∧
  (∀ (s : State) (r : Request) (rest : List Request) (i : Instr), s.wireSlot = none →
    s.reqPort = none → s.hostScript = r :: rest → decodeRequest r = .ok i →
    step s = exec i { s with reqPort := none, hostScript := rest }) ∧
  (∀ s : State, s.wireSlot = none → s.reqPort = none → s.hostScript = [] → step s = .next s)

/-- Every instruction answers a next state in every state: no operation hangs, traps or stops (R119, R158,
R166), and no scan reads a RESULT entry that holds no value (R57). Under WAIT_MODE = DEADLINE this rests
on the fair clock of log 8. -/
def Obligations.EveryInstructionCompletes : Prop :=
  ∀ (i : Instr) (s : State), ∃ t, exec i s = .next t

/-! ### Wire commands -/

/-- R96, R97, R99, R100, R102, R104: each of these commands is one transaction with no gap and nothing in;
RDATAC and SDATAC also set and clear CONT_MODE; nothing else changes. A released line stays released (log
11). R102 gives WREG the addresses 0x0..0xA; that from 0xB on it is the same formula is the model's choice
(log 25). -/
def Obligations.WriteCommandsAreOneTransaction : Prop :=
  ∀ (s : State) (a : RegAddr) (v : Byte),
    exec .adcWakeup s = .next { s with
      lines := s.lines.drive .adc .high
      trace := s.trace ++ [.tx .adc [s.par.cmdWakeup] false []] } ∧
    exec .adcSync s = .next { s with
      lines := s.lines.drive .adc .high
      trace := s.trace ++ [.tx .adc [s.par.cmdSync] false []] } ∧
    exec .adcRdatac s = .next { s with
      contMode := true
      lines := s.lines.drive .adc .high
      trace := s.trace ++ [.tx .adc [s.par.cmdRdatac] false []] } ∧
    exec .adcSdatac s = .next { s with
      contMode := false
      lines := s.lines.drive .adc .high
      trace := s.trace ++ [.tx .adc [s.par.cmdSdatac] false []] } ∧
    exec (.adcWreg a v) s = .next { s with
      lines := s.lines.drive .adc .high
      trace := s.trace ++ [.tx .adc [s.par.cmdWreg ||| a.zeroExtend 8, 0x00#8, v] false []] }

/-- R98, R101, R182: a read command is one transaction with the command-to-data gap; RDATA shifts in three
bytes, RREG one, and they are the outside's next answers; nothing else changes. A released line stays
released (log 11). R101 gives RREG the addresses 0x0..0xA; that from 0xB on it is the same formula is the
model's choice (log 25). -/
def Obligations.ReadCommandsAreOneGappedTransaction : Prop :=
  ∀ (s : State) (a : RegAddr),
    (∃ b0 b1 b2, exec .adcRdata s = .next { s with
      lines := s.lines.drive .adc .high
      oracle := s.oracle.dropByte.dropByte.dropByte
      trace := s.trace ++ [.tx .adc [s.par.cmdRdata] true [b0, b1, b2]] } ∧
      b0 = s.oracle.nextByte ∧ b1 = s.oracle.dropByte.nextByte ∧
      b2 = s.oracle.dropByte.dropByte.nextByte) ∧
    exec (.adcRreg a) s = .next { s with
      lines := s.lines.drive .adc .high
      oracle := s.oracle.dropByte
      trace := s.trace ++
        [.tx .adc [s.par.cmdRreg ||| a.zeroExtend 8, 0x00#8] true [s.oracle.nextByte]] }

/-- R103, R105, R118: SELFCAL and RESET send their byte and wait for DRDY; RESET also clears CONT_MODE and
loads the defaults of R56, the scan mode kept; a timeout is only a warning. A released line stays released
(log 11). -/
def Obligations.SelfcalAndResetWait : Prop :=
  ∀ s : State,
    (∃ k evs ws o, exec .adcSelfcal s = .next { s with
      acq := { s.acq with pollCnt := k }
      lines := s.lines.drive .adc .high
      trace := s.trace ++ [.tx .adc [s.par.cmdSelfcal] false []] ++ evs
      warnLog := s.warnLog ++ ws
      oracle := o } ∧ s.oracle.WaitDraws o ∧ WaitShape s.par .low .selfcal k evs ws) ∧
    (∃ k evs ws o, exec .adcReset s = .next { s with
      cfg := ⟨0#3, 0#4, 0#1, s.cfg.scanMode⟩
      contMode := false
      acq := { s.acq with pollCnt := k }
      lines := s.lines.drive .adc .high
      trace := s.trace ++ [.tx .adc [s.par.cmdReset] false []] ++ evs
      warnLog := s.warnLog ++ ws
      oracle := o } ∧ s.oracle.WaitDraws o ∧ WaitShape s.par .low .reset k evs ws)

/-- R63, R155: a DAC frame is one transaction on CS_DAC_N, the channel's control byte and then the code
most significant byte first; nothing else changes. -/
def Obligations.DacFramesAreOneTransaction : Prop :=
  ∀ (s : State) (high low : Byte),
    exec (.dacWriteA (high ++ low)) s = .next { s with
      lines := s.lines.drive .dac .high
      trace := s.trace ++ [.tx .dac [s.par.dacCtrlA, high, low] false []] } ∧
    exec (.dacWriteB (high ++ low)) s = .next { s with
      lines := s.lines.drive .dac .high
      trace := s.trace ++ [.tx .dac [s.par.dacCtrlB, high, low] false []] }

/-! ### The bounded wait -/

/-- R117 under POLLS, for WaitReady (the level is LOW) and WaitNotReady (HIGH): a wait whose answers reach the
level within POLL_LIMIT polls ends there with no warning, POLL_CNT counting the polls before it; one whose
first POLL_LIMIT answers are the other level times out after exactly those polls with one warning. Nothing
else changes. -/
def Obligations.WaitsEndExactly : Prop :=
  ∀ (s : State) (want : Level) (site : Site) (rest : List Level), s.par.waitMode = .polls →
    waitReady site s = (waitFor .low site s).2 ∧ waitNotReady site s = (waitFor .high site s).2 ∧
    (∀ k, k < s.par.pollLimit →
      s.oracle.levels = List.replicate k want.other ++ want :: rest →
      waitFor want site s = (.ready, { s with
        acq := { s.acq with pollCnt := k }
        trace := s.trace ++ (List.replicate k (.poll want.other) ++ [.poll want])
        oracle := { s.oracle with
          levels := rest, levelsDrawn := s.oracle.levelsDrawn + (k + 1) } })) ∧
    (s.oracle.levels = List.replicate s.par.pollLimit want.other ++ rest →
      waitFor want site s = (.timeout, { s with
        acq := { s.acq with pollCnt := s.par.pollLimit }
        trace := s.trace ++ List.replicate s.par.pollLimit (.poll want.other)
        warnLog := s.warnLog ++ [.drdyTimeout site want]
        oracle := { s.oracle with
          levels := rest, levelsDrawn := s.oracle.levelsDrawn + s.par.pollLimit } }))

/-- R117 under DEADLINE, for either level: with clock answers t0 and then k short of the deadline, each
followed by a poll of the other level, a next answer that shows the deadline passed ends the wait in one
warning after those k polls; one still short, with a poll of the level waited for, ends it with no warning.
Nothing else changes. The clock is monotone (R17, log 7), the bound on short answers is log 8's, and that
POLL_CNT counts the k polls is log 23. -/
def Obligations.DeadlineWaitReadsTheClock : Prop :=
  ∀ (s : State) (want : Level) (site : Site) (t0 t : Nat) (short rest : List Nat) (more : List Level),
    s.par.waitMode = .deadline → s.oracle.ticks = t0 :: (short ++ t :: rest) →
    (s.oracle.lastTick :: t0 :: (short ++ [t])).Pairwise (· ≤ ·) → short.length < s.par.fairBound →
    (∀ u ∈ short, (u : Rat) - t0 < (s.par.deadlineUs : Rat) * s.par.tickHz / 1000000) →
    ((s.par.deadlineUs : Rat) * s.par.tickHz / 1000000 ≤ (t : Rat) - t0 →
      s.oracle.levels = List.replicate short.length want.other ++ more →
      waitFor want site s = (.timeout, { s with
        acq := { s.acq with pollCnt := short.length }
        trace := s.trace ++ List.replicate short.length (.poll want.other)
        warnLog := s.warnLog ++ [.drdyTimeout site want]
        oracle := { s.oracle with
          ticks := rest, ticksDrawn := s.oracle.ticksDrawn + (short.length + 2), lastTick := t
          levels := more, levelsDrawn := s.oracle.levelsDrawn + short.length } })) ∧
    ((t : Rat) - t0 < (s.par.deadlineUs : Rat) * s.par.tickHz / 1000000 →
      s.oracle.levels = List.replicate short.length want.other ++ want :: more →
      waitFor want site s = (.ready, { s with
        acq := { s.acq with pollCnt := short.length }
        trace := s.trace ++ (List.replicate short.length (.poll want.other) ++ [.poll want])
        oracle := { s.oracle with
          ticks := rest, ticksDrawn := s.oracle.ticksDrawn + (short.length + 2), lastTick := t
          levels := more, levelsDrawn := s.oracle.levelsDrawn + (short.length + 1) } }))

/-! ### Lifecycle -/

/-- R151, R160: HOST.INIT from a handle that is not READY. With the transport open and the identity right
it is READY with the defaults of R56; with another identity the transport is closed, the lines released
and the handle UNINIT; with no transport it is UNINIT after the one event. On a READY handle it is
refused and changes nothing. -/
def Obligations.InitOpensResetsIdentifies : Prop :=
  ∀ s : State,
    (s.hstate = .ready → exec .hostInit s =
      .next { s with responses := s.responses ++ [⟨.alreadyInit, .none⟩] }) ∧
    (s.hstate ≠ .ready → s.oracle.nextOpen = false → exec .hostInit s = .next { s with
      hstate := .uninit
      trace := s.trace ++ [.opened false]
      responses := s.responses ++ [⟨.initBus, .none⟩]
      oracle := s.oracle.dropOpen }) ∧
    (s.hstate ≠ .ready → s.oracle.nextOpen = true → ∃ k evs ws o,
      s.oracle.lastTick ≤ o.lastTick ∧ WaitShape s.par .low .init k evs ws ∧
      (s.oracle.nextByte.extractLsb' s.par.idLsb 4 = s.par.chipId → exec .hostInit s = .next { s with
        hstate := .ready
        cfg := ⟨0#3, 0#4, 0#1, .se⟩
        acq := { s.acq with phase := .idle, pollCnt := k }
        contMode := false
        lines := ⟨true, .driven .high, .driven .high, .driven .high⟩
        trace := s.trace ++ [.opened true] ++ resetPulseEvents s.par ++ evs ++
          [.tx .adc (rregBytes s.par s.par.regStatus) true [s.oracle.nextByte]]
        warnLog := s.warnLog ++ ws
        responses := s.responses ++ [⟨.ok, .none⟩]
        oracle := o }) ∧
      (s.oracle.nextByte.extractLsb' s.par.idLsb 4 ≠ s.par.chipId → exec .hostInit s = .next { s with
        hstate := .uninit
        acq := { s.acq with pollCnt := k }
        lines := ⟨false, .rel, .rel, .rel⟩
        trace := s.trace ++ [.opened true] ++ resetPulseEvents s.par ++ evs ++
          [.tx .adc (rregBytes s.par s.par.regStatus) true [s.oracle.nextByte], .closed]
        warnLog := s.warnLog ++ ws
        responses := s.responses ++ [⟨.initId, .none⟩]
        oracle := o }))

/-- R150, R152: HOST.RESET on a READY handle, whose lines are held, pulses RST_N, clears CONT_MODE, loads
the defaults of R56 with the scan mode kept, waits for DRDY and answers OK; otherwise it is refused. The
transport held is R25's invariant (ControlInv). -/
def Obligations.HostResetPulsesAndRestores : Prop :=
  ∀ s : State,
    (s.hstate ≠ .ready → exec .hostReset s =
      .next { s with responses := s.responses ++ [⟨.notReady, .none⟩] }) ∧
    (s.hstate = .ready → s.lines.held = true → ∃ k evs ws o, exec .hostReset s = .next { s with
      cfg := ⟨0#3, 0#4, 0#1, s.cfg.scanMode⟩
      acq := { s.acq with pollCnt := k }
      contMode := false
      lines := { s.lines with rst := .driven .high }
      trace := s.trace ++
        [.rst .high, .delay s.par.tRstHigh, .rst .low, .delay s.par.tRstLow, .rst .high] ++ evs
      warnLog := s.warnLog ++ ws
      responses := s.responses ++ [⟨.ok, .none⟩]
      oracle := o } ∧ s.oracle.WaitDraws o ∧ WaitShape s.par .low .reset k evs ws)

/-- R149, R153, R161: HOST.SHUTDOWN in any state closes the transport if it is held, releases the lines,
is SHUTDOWN and answers OK; a second one emits no event, answers OK and changes nothing else. -/
def Obligations.ShutdownIsIdempotent : Prop :=
  ∀ s : State, ∃ t,
    exec .hostShutdown s = .next t ∧
    t = { s with
      hstate := .shutdown
      lines := if s.lines.held then ⟨false, .rel, .rel, .rel⟩ else s.lines
      trace := s.trace ++ (if s.lines.held then [.closed] else [])
      responses := s.responses ++ [⟨.ok, .none⟩] } ∧
    exec .hostShutdown t = .next { t with responses := t.responses ++ [⟨.ok, .none⟩] }

/-! ### Register file -/

/-- R92, R145, R146: HOST.CONFIGURE on a READY handle outside continuous mode, with any gain code but 7,
waits, writes STATUS, ADCON and DRATE with their bytes in that order, waits, and then holds the operands;
CFG_SCANMODE and everything else stay. The bytes are the parameter tables' (R3; ConfigurationBytes says what
they are by default). -/
def Obligations.ConfigureWritesThreeRegisters : Prop :=
  ∀ (s : State) (gain : GainCode) (drate : RateIndex) (bufen : BitVec 1), s.hstate = .ready →
    s.contMode = false → gain ≠ 7#3 →
    ∃ k₁ e₁ w₁ k₂ e₂ w₂ o, exec (.hostConfigure gain drate bufen) s = .next { s with
      cfg := ⟨gain, drate, bufen, s.cfg.scanMode⟩
      acq := { s.acq with pollCnt := k₂ }
      lines := s.lines.drive .adc .high
      trace := s.trace ++ e₁ ++
        [wregEvent s.par s.par.regStatus (s.par.statusByte.get bufen.toFin),
          wregEvent s.par s.par.regAdcon (s.par.adconByte.get gain.toFin),
          wregEvent s.par s.par.regDrate (s.par.drateByte.get drate.toFin)] ++ e₂
      warnLog := s.warnLog ++ w₁ ++ w₂
      responses := s.responses ++ [⟨.ok, .none⟩]
      oracle := o } ∧ s.oracle.WaitDraws o ∧
      WaitShape s.par .low .configure k₁ e₁ w₁ ∧ WaitShape s.par .low .configure k₂ e₂ w₂

/-- R147, R148: on a READY handle HOST.SET_SCAN_MODE writes CFG_SCANMODE and nothing else, and
HOST.GET_CONFIG answers the register file and changes nothing; neither emits an event, whatever CONT_MODE
is; on another handle both are refused. -/
def Obligations.ScanModeAndConfigReadback : Prop :=
  ∀ (s : State) (m : ScanMode),
    (s.hstate = .ready →
      exec (.hostSetScanMode m) s = .next { s with
        cfg := { s.cfg with scanMode := m }
        responses := s.responses ++ [⟨.ok, .none⟩] } ∧
      exec .hostGetConfig s = .next { s with
        responses := s.responses ++
          [⟨.ok, .config s.cfg.gain s.cfg.drate s.cfg.bufen s.cfg.scanMode⟩] }) ∧
    (s.hstate ≠ .ready →
      exec (.hostSetScanMode m) s =
        .next { s with responses := s.responses ++ [⟨.notReady, .none⟩] } ∧
      exec .hostGetConfig s = .next { s with responses := s.responses ++ [⟨.notReady, .none⟩] })

/-- R29: the data-rate table's SPS values, and the three register bytes the source gives. -/
def Obligations.DataRateTable : Prop :=
  ((List.finRange 16).map fun i => drateSps (BitVec.ofFin i)) =
    [30000, 15000, 7500, 3750, 2000, 1000, 500, 100, 60, 50, 30, 25, 15, 10, 5, 5 / 2] ∧
  ∀ p : Params, p.wf = true →
    drateByte p 0#4 = 0xF0#8 ∧ drateByte p 7#4 = 0x82#8 ∧ drateByte p 15#4 = 0x03#8

/-! ### Command layer -/

/-- R107: HOST.WRITE_CMD on a READY handle with an admitted byte, outside continuous mode or with a byte
that ends it, is that byte's wire command followed by (OK, none). -/
def Obligations.WriteCmdIsTheWireCommand : Prop :=
  ∀ (s : State) (cmd : Byte), s.par.wf = true → s.hstate = .ready → cmd ∈ s.par.hostCmds →
    (s.contMode = false ∨ cmd = s.par.cmdSdatac ∨ cmd = s.par.cmdReset) →
    ∃ i t, decodeAdc s.par [cmd] = .ok i ∧ exec i s = .next t ∧
      exec (.hostWriteCmd cmd) s = .next { t with responses := t.responses ++ [⟨.ok, .none⟩] }

/-- R106, R108, R109: on a READY handle outside continuous mode, with a register address, HOST.WRITE_REG
sends one WREG and HOST.READ_REG one gapped RREG whose byte it answers; the configuration register file
and everything else stay, whichever register is named. -/
def Obligations.RegisterAccessIsOneTransaction : Prop :=
  ∀ (s : State) (a : RegAddr) (v : Byte), s.hstate = .ready → s.contMode = false →
    a.toNat < s.par.regCount →
    exec (.hostWriteReg a v) s = .next { s with
      lines := s.lines.drive .adc .high
      trace := s.trace ++ [.tx .adc [s.par.cmdWreg ||| a.zeroExtend 8, 0x00#8, v] false []]
      responses := s.responses ++ [⟨.ok, .none⟩] } ∧
    exec (.hostReadReg a) s = .next { s with
      lines := s.lines.drive .adc .high
      oracle := s.oracle.dropByte
      trace := s.trace ++
        [.tx .adc [s.par.cmdRreg ||| a.zeroExtend 8, 0x00#8] true [s.oracle.nextByte]]
      responses := s.responses ++ [⟨.ok, .value s.oracle.nextByte⟩] }

/-! ### Conversion -/

/-- R90: the raw sample of every three response bytes is the 24-bit code less 2^24 when bit 23 is set and
the code itself otherwise, and lies between -8388608 and 8388607. -/
def Obligations.SampleIsSignExtended : Prop :=
  ∀ b0 b1 b2 : Byte,
    let w : Int := b0.toNat * 65536 + b1.toNat * 256 + b2.toNat
    (rawSample b0 b1 b2).toInt = (if b0[7] then w - 16777216 else w) ∧
    -8388608 ≤ (rawSample b0 b1 b2).toInt ∧ (rawSample b0 b1 b2).toInt ≤ 8388607

/-- R89: the multiplexer byte of every valid index: positive input in the high nibble, AINCOM's code or the
next input in the low one. The MUX_CODE tables and the position of AINCOM_CODE in them are parameters (R3),
and this is what their defaults give, for every AINCOM_CODE and for 0x8. -/
def Obligations.MultiplexerBytes : Prop :=
  ∀ (q : Params) (a : BitVec 4) (c : Nat),
    let p := { q with aincomCode := a, nselLsb := 0, muxSe := muxSeDefault, muxDiff := muxDiffDefault }
    (c < 8 → (muxCode p .se c).toNat = c * 16 + a.toNat ∧
      (muxCode Params.default .se c).toNat = c * 16 + 8) ∧
    (c < 4 → (muxCode p .diff c).toNat = 2 * c * 16 + (2 * c + 1) ∧
      (muxCode Params.default .diff c).toNat = 2 * c * 16 + (2 * c + 1))

/-- R113 to R116, R120, R122, R124: HOST.READ_CHANNEL of a valid index on a READY handle outside continuous
mode selects, synchronizes, wakes, waits once and reads; it answers OK with the sample of the bytes read,
also after a timeout (R118); PHASE is back at IDLE, SETTLE_N and SETTLE_K are 1, and everything else
stays. -/
def Obligations.ReadChannelAcquiresOnce : Prop :=
  ∀ (s : State) (ch : Int), s.hstate = .ready → s.contMode = false →
    (s.cfg.scanMode = .se ∧ 0 ≤ ch ∧ ch < 8 ∨ s.cfg.scanMode = .diff ∧ 0 ≤ ch ∧ ch < 4) →
    ∃ k e w b0 b1 b2 o, exec (.hostReadChannel ch) s = .next { s with
      acq := ⟨.idle, 1#8, 1#8, k, some ch, some (muxCode s.par s.cfg.scanMode ch),
        some (rawSample b0 b1 b2)⟩
      lines := s.lines.drive .adc .high
      trace := s.trace ++
        [.tx .adc (wregBytes s.par s.par.regMux (muxCode s.par s.cfg.scanMode ch)) false [],
          .tx .adc [s.par.cmdSync] false [], .delay s.par.t11Min,
          .tx .adc [s.par.cmdWakeup] false []] ++ e ++ [.tx .adc [s.par.cmdRdata] true [b0, b1, b2]]
      warnLog := s.warnLog ++ w
      responses := s.responses ++ [⟨.ok, .sample (rawSample b0 b1 b2)⟩]
      oracle := o } ∧
      WaitShape s.par .low (.acq .readChannel 0) k e w ∧ s.oracle.lastTick ≤ o.lastTick ∧
      b0 = s.oracle.nextByte ∧ b1 = s.oracle.dropByte.nextByte ∧
      b2 = s.oracle.dropByte.dropByte.nextByte

/-- R110, R111: an index outside the active mode's range, negative ones included, yields 0 with status OK
and one warning, emits no bus event and leaves every other field. -/
def Obligations.InvalidChannelYieldsZero : Prop :=
  ∀ (s : State) (ch : Int), s.hstate = .ready → s.contMode = false →
    (ch < 0 ∨ s.cfg.scanMode = .se ∧ 8 ≤ ch ∨ s.cfg.scanMode = .diff ∧ 4 ≤ ch) →
    exec (.hostReadChannel ch) s = .next { s with
      warnLog := s.warnLog ++ [.invalidChannel .readChannel 0 ch]
      responses := s.responses ++ [⟨.ok, .sample 0#32⟩] } ∧
    ∀ (slot : Nat) (n : Byte), acquire .scanChannels slot ch n s =
      (0#32, { s with warnLog := s.warnLog ++ [.invalidChannel .scanChannels slot ch] })

/-! ### Scanner -/

/-- R125 to R131: a scan is its slots' acquisitions in list order, each a full sequence with the scan's
settling count or, for an invalid index, a zero sample and a warning; the answer has one sample per entry;
RESULT holds them and no value beyond (R37), or what it held if the list is empty (R132; log 21); ACQ_CH,
ACQ_MUX, LAST_SAMPLE, SETTLE_N and SETTLE_K are the last valid entry's, and with no valid entry what they
were (R111, R113, R120, R122); the scan registers hold the request, and nothing outside the acquisition, the
scanner, the monitor, the logs and the oracle changes. -/
def Obligations.ScanIsItsAcquisitions : Prop :=
  ∀ (s : State) (list : List Int) (settle : Byte), s.hstate = .ready → s.contMode = false →
    list.length ≤ 8 → settle ≠ 0#8 →
    ∃ t evs ws vs, exec (.hostScanChannels list settle) s = .next t ∧
      ScanShape s.par s.cfg.scanMode settle.toNat 0 list evs ws vs ∧
      t.trace = s.trace ++ evs ∧ t.warnLog = s.warnLog ++ ws ∧
      t.responses = s.responses ++ [⟨.ok, .samples vs⟩] ∧ vs.length = list.length ∧
      (∀ (j : Nat) (h : j < 8), t.scan.result[j] = if list = [] then s.scan.result[j] else vs[j]?) ∧
      (∀ (j : Nat) (ch : Int), list[j]? = some ch → validCh s.cfg.scanMode ch = true →
        (∀ (i : Nat) (c : Int), j < i → list[i]? = some c → validCh s.cfg.scanMode c = false) →
        t.acq = ⟨.idle, settle, settle, t.acq.pollCnt, some ch, some (muxCode s.par s.cfg.scanMode ch),
          vs[j]?⟩) ∧
      ((∀ ch ∈ list, validCh s.cfg.scanMode ch = false) → t.acq = s.acq) ∧
      t.scan.list = list ∧ t.scan.len = list.length ∧ t.scan.idx = list.length ∧
      t.scan.settle = settle ∧
      t = { s with
        acq := t.acq, scan := t.scan, mon := t.mon, lines := t.lines, trace := t.trace
        warnLog := t.warnLog, responses := t.responses, oracle := t.oracle } ∧
      (t.lines = s.lines ∨ t.lines = s.lines.drive .adc .high)

/-- R131, R133, R193: a scan of which v entries are valid appends exactly v multiplexer writes, v SYNC,
v WAKEUP and d RDATA, 3v + d transactions in all, and takes at least v × T11_MIN + d × T6_MIN, where d is
v × settle with SETTLE_DISCARD_READ and v without. Its polls and its timeout warnings are, in order, those
of its waits: v × settle for LOW and, without SETTLE_DISCARD_READ, v × (settle − 1) for HIGH; with it, each
of the v × settle waits ends at a poll reading 0 or in one timeout warning. -/
def Obligations.ScanTransactionCounts : Prop :=
  ∀ (s : State) (list : List Int) (settle : Byte), s.par.wf = true → s.hstate = .ready →
    s.contMode = false → list.length ≤ 8 → settle ≠ 0#8 →
    ∃ t evs ws, exec (.hostScanChannels list settle) s = .next t ∧
      t.trace = s.trace ++ evs ∧ t.warnLog = s.warnLog ++ ws ∧
      let v := list.countP fun ch => validCh s.cfg.scanMode ch
      let d := if s.par.settleDiscardRead then v * settle.toNat else v
      countEvents (Event.isMuxWrite s.par) evs = v ∧
      countEvents (Event.isCmd s.par.cmdSync) evs = v ∧
      countEvents (Event.isCmd s.par.cmdWakeup) evs = v ∧
      countEvents (Event.isRdata s.par) evs = d ∧
      countEvents (fun e => !e.isPoll .low && !e.isPoll .high && !(e == .delay s.par.t11Min)) evs =
        3 * v + d ∧
      minTime s.par evs = v * s.par.t11Min + d * s.par.t6Min ∧
      (∃ waits : List ScanWait, (∀ w ∈ waits, w.Shape s.par) ∧
        evs.filter (fun e => e.isPoll .low || e.isPoll .high) = waits.flatMap (·.evs) ∧
        ws.filter Warning.isTimeout = waits.flatMap (·.ws) ∧
        waits.countP (·.level == .low) = v * settle.toNat ∧
        waits.countP (·.level == .high) =
          if s.par.settleDiscardRead then 0 else v * (settle.toNat - 1)) ∧
      (s.par.settleDiscardRead = true →
        countEvents (Event.isPoll .low) evs + ws.countP Warning.isTimeout = v * settle.toNat)

/-- R132: an empty list answers (OK, []) with no event, RESULT and the monitor untouched. -/
def Obligations.EmptyScanDoesNothing : Prop :=
  ∀ (s : State) (settle : Byte), s.hstate = .ready → s.contMode = false → settle ≠ 0#8 →
    exec (.hostScanChannels [] settle) s = .next { s with
      scan := ⟨[], 0, 0, settle, s.scan.result⟩
      responses := s.responses ++ [⟨.ok, .samples []⟩] }

/-- R136, R137: a scan of n > 0 entries on an active monitor counts n samples (invalid slots included) and
one scan and recomputes the derived fields at one clock reading; an empty scan or an inactive monitor
leaves the monitor. -/
def Obligations.ScanIsRecordedOnce : Prop :=
  ∀ (s : State) (list : List Int) (settle : Byte), s.hstate = .ready → s.contMode = false →
    list.length ≤ 8 → settle ≠ 0#8 →
    ∃ t, exec (.hostScanChannels list settle) s = .next t ∧
      (s.mon.active = false ∨ list = [] → t.mon = s.mon) ∧
      (s.mon.active = true → list ≠ [] → ∃ tick, s.oracle.lastTick ≤ tick ∧ t.oracle.lastTick = tick ∧
        t.mon.active = true ∧ t.mon.start = s.mon.start ∧ t.mon.theo = s.mon.theo ∧
        t.mon.samples = s.mon.samples + list.length ∧ t.mon.scans = s.mon.scans + 1 ∧
        t.mon.lastN = list.length ∧
        t.mon.spsTotal = (let e := ((tick : Rat) - s.mon.start) / s.par.tickHz
          if e > 0 then (s.mon.samples + list.length : Nat) / e else 0) ∧
        t.mon.spsCh = t.mon.spsTotal / list.length ∧
        t.mon.eff = (if s.mon.theo > 0 then t.mon.spsCh / s.mon.theo * 100 else 0) ∧
        t.mon.status = classify s.par t.mon.samples t.mon.eff)

/-! ### Monitor -/

/-- R135: HOST.PERF_BEGIN in any state starts the monitor at the clock's answer with the theoretical rate
of its argument and every counter and derived field cleared; no bus event, and nothing else but the clock
changes. -/
def Obligations.PerfBeginRestartsTheMonitor : Prop :=
  ∀ (s : State) (i : RateIndex), exec (.hostPerfBegin i) s = .next { s with
    mon := ⟨true, s.oracle.nextTick 0, drateSps i, 0, 0, 0, 0, 0, 0, .noData⟩
    oracle := s.oracle.dropTick 0
    responses := s.responses ++ [⟨.ok, .none⟩] } ∧ s.oracle.lastTick ≤ s.oracle.nextTick 0

/-- R139: HOST.PERF_REPORT in any state answers the metrics (R20's ROUND applied in a floating-point
implementation, log 13) and changes no accumulator; inactive it changes nothing, active it refreshes the
derived fields at the clock's answer by R137. -/
def Obligations.PerfReportIsReadOnly : Prop :=
  ∀ s : State, ∃ t, exec .hostPerfReport s = .next t ∧
    t = { s with mon := t.mon, oracle := t.oracle, responses := t.responses } ∧
    t.responses = s.responses ++ [⟨.ok, .metrics ⟨t.mon.start, t.mon.samples, t.mon.scans,
      answer s.par t.mon.theo, answer s.par t.mon.spsTotal, answer s.par t.mon.spsCh,
      answer s.par t.mon.eff, t.mon.status⟩⟩] ∧
    (s.mon.active = false → t.mon = s.mon ∧ t.oracle = s.oracle) ∧
    (s.mon.active = true → t.oracle = s.oracle.dropTick 0 ∧
      t.mon.active = true ∧ t.mon.start = s.mon.start ∧ t.mon.theo = s.mon.theo ∧
      t.mon.samples = s.mon.samples ∧ t.mon.scans = s.mon.scans ∧ t.mon.lastN = s.mon.lastN ∧
      t.mon.spsTotal = (let e := ((s.oracle.nextTick 0 : Rat) - s.mon.start) / s.par.tickHz
        if e > 0 then s.mon.samples / e else 0) ∧
      t.mon.spsCh = (if s.mon.lastN > 0 then t.mon.spsTotal / s.mon.lastN else 0) ∧
      t.mon.eff = (if s.mon.theo > 0 then t.mon.spsCh / s.mon.theo * 100 else 0) ∧
      t.mon.status = classify s.par s.mon.samples t.mon.eff)

/-- R138 with the thresholds 85, 70, 50, which are the defaults: the classification of every count and
efficiency. -/
def Obligations.ClassificationIsStrict : Prop :=
  (Params.default.effExcellent = 85 ∧ Params.default.effGood = 70 ∧ Params.default.effFair = 50) ∧
  ∀ (p : Params) (samples : Nat) (eff : Rat), p.effExcellent = 85 → p.effGood = 70 → p.effFair = 50 →
    (classify p samples eff = .noData ↔ samples = 0) ∧
    (classify p samples eff = .excellent ↔ samples ≠ 0 ∧ eff > 85) ∧
    (classify p samples eff = .good ↔ samples ≠ 0 ∧ eff > 70 ∧ eff ≤ 85) ∧
    (classify p samples eff = .fair ↔ samples ≠ 0 ∧ eff > 50 ∧ eff ≤ 70) ∧
    (classify p samples eff = .poor ↔ samples ≠ 0 ∧ eff ≤ 50)

/-- R140: with no sample since the begin call, a report on a state that meets the monitor's invariant
shows efficiency 0 and NO_DATA. -/
def Obligations.NoSamplesNoEfficiency : Prop :=
  ∀ s : State, MonInv s → s.mon.samples = 0 →
    s.mon.eff = 0 ∧ s.mon.status = .noData ∧
    ∃ t, exec .hostPerfReport s = .next t ∧ t.mon.eff = 0 ∧ t.mon.status = .noData

/-- R141: whenever the samples recorded are r per elapsed second in scans of n, the total rate is r and the
efficiency is r / n / MON_THEO × 100, whatever the elapsed time: the asymptote is the value itself. -/
def Obligations.ConstantRateHasConstantEfficiency : Prop :=
  ∀ (p : Params) (m : Mon) (t : Nat) (r : Rat), 0 < p.tickHz → m.start < t → 0 < m.lastN →
    0 < m.theo → (m.samples : Rat) = r * (((t : Rat) - m.start) / p.tickHz) →
    (m.derive p t).spsTotal = r ∧ (m.derive p t).eff = r / m.lastN / m.theo * 100

/-! ### Codec -/

/-- R142, R144, R158: HOST.RAW_TO_VOLTAGE in any state answers (code / 2^23) × ((vpos − vneg) / gain) for a
multiplier of the gain table, rounded only in a floating-point implementation (R20, log 13), refuses any
other multiplier with E_BAD_ARG, and changes nothing. -/
def Obligations.VoltageFormula : Prop :=
  ∀ (s : State) (code : Sample) (gain : Nat) (vpos vneg : Rat),
    (gain ∈ [1, 2, 4, 8, 16, 32, 64] → ∃ v : Rat,
      v * (8388608 * gain) = code.toInt * (vpos - vneg) ∧
      exec (.hostRawToVoltage code gain vpos vneg) s = .next { s with
        responses := s.responses ++ [⟨.ok, .voltage (match s.par.numeric with
          | .exact => v
          | .float => Config.round v)⟩] }) ∧
    (gain ∉ [1, 2, 4, 8, 16, 32, 64] → exec (.hostRawToVoltage code gain vpos vneg) s =
      .next { s with responses := s.responses ++ [⟨.badArg, .none⟩] })

/-! ### DAC -/

/-- R156: HOST.DAC_WRITE on a READY handle, whatever CONT_MODE is: channel 0 or 1 sends its frame and
shadows the code, any other index warns and sends nothing; both answer OK; on another handle it is refused
before the index is looked at. -/
def Obligations.DacWriteSendsAndShadows : Prop :=
  ∀ (s : State) (ch : Int) (code : DacCode),
    (s.hstate ≠ .ready → exec (.hostDacWrite ch code) s =
      .next { s with responses := s.responses ++ [⟨.notReady, .none⟩] }) ∧
    (s.hstate = .ready → ch = 0 → exec (.hostDacWrite ch code) s = .next { s with
      dacA := some code
      lines := s.lines.drive .dac .high
      trace := s.trace ++
        [.tx .dac [s.par.dacCtrlA, code.extractLsb' 8 8, code.extractLsb' 0 8] false []]
      responses := s.responses ++ [⟨.ok, .none⟩] }) ∧
    (s.hstate = .ready → ch = 1 → exec (.hostDacWrite ch code) s = .next { s with
      dacB := some code
      lines := s.lines.drive .dac .high
      trace := s.trace ++
        [.tx .dac [s.par.dacCtrlB, code.extractLsb' 8 8, code.extractLsb' 0 8] false []]
      responses := s.responses ++ [⟨.ok, .none⟩] }) ∧
    (s.hstate = .ready → ch ≠ 0 → ch ≠ 1 → exec (.hostDacWrite ch code) s = .next { s with
      warnLog := s.warnLog ++ [.dacInvalidChannel ch]
      responses := s.responses ++ [⟨.ok, .none⟩] })

/-! ### Admission and responses -/

/-- R12, R79, R158, R162, R163, R164: every host operation answers exactly one response; one that a
condition of the admission tables refuses answers the first such code in the order lifecycle, argument,
continuous mode, with no payload and no other change; an admitted one answers OK, or HOST.INIT one of its
two failures with no payload. -/
def Obligations.AdmissionTable : Prop :=
  ∀ (s : State) (i : Instr), i.isHost = true →
    ∃ t r, exec i s = .next t ∧ t.responses = s.responses ++ [r] ∧
      (r.status ≠ .ok → r.payload = .none) ∧
      (∀ e, refusalOf s i = some e → t = { s with responses := s.responses ++ [⟨e, .none⟩] }) ∧
      (refusalOf s i = none → r.status = .ok ∨
        i = .hostInit ∧ (r.status = .initBus ∨ r.status = .initId))

/-- A wire command by itself answers nothing to the host (log 5) and changes at most its own chip-select line
(R14, R15), POLL_CNT, the logs and the oracle; of these POLL_CNT and WARN_LOG only SELFCAL and RESET (R103,
R105), and the oracle only those two, RDATA and RREG; RESET also changes gain, rate and buffer (R105), and
RESET, RDATAC and SDATAC CONT_MODE (R99, R100, R105). -/
def Obligations.WireCommandsAnswerNothing : Prop :=
  ∀ (s t : State) (i : Instr), i.isHost = false → exec i s = .next t →
    t = { s with
      cfg := { t.cfg with scanMode := s.cfg.scanMode }
      acq := { s.acq with pollCnt := t.acq.pollCnt }, contMode := t.contMode
      lines := { s.lines with csAdc := t.lines.csAdc, csDac := t.lines.csDac }
      warnLog := t.warnLog, trace := t.trace, oracle := t.oracle } ∧
    (i ≠ .adcReset → t.cfg = s.cfg) ∧
    (i ≠ .adcReset → i ≠ .adcRdatac → i ≠ .adcSdatac → t.contMode = s.contMode) ∧
    (i ≠ .adcSelfcal → i ≠ .adcReset → t.acq = s.acq ∧ t.warnLog = s.warnLog) ∧
    (i ≠ .adcSelfcal → i ≠ .adcReset → i ≠ .adcRdata → (∀ a, i ≠ .adcRreg a) → t.oracle = s.oracle) ∧
    ((∃ c, i = .dacWriteA c ∨ i = .dacWriteB c) → t.lines.csAdc = s.lines.csAdc) ∧
    ((∀ c, i ≠ .dacWriteA c ∧ i ≠ .dacWriteB c) → t.lines.csDac = s.lines.csDac)

/-! ### Whole-machine rules -/

/-- R25, R169: HSTATE moves only by HOST.INIT out of a handle that is not READY, and by HOST.SHUTDOWN. -/
def Obligations.LifecycleMovesOnlyByInitAndShutdown : Prop :=
  ∀ (i : Instr) (s t : State), exec i s = .next t → HState.Moves i s.hstate t.hstate

/-- R23, R26, R28, R30, R31, R33, R35, R36, R38, R39, R40, R44, R134: which operations write which
registers. -/
def Obligations.RegistersHaveOnlyTheirWriters : Prop :=
  ∀ (i : Instr) (s t : State), exec i s = .next t →
    (t.mon ≠ s.mon → (∃ d, i = .hostPerfBegin d) ∨ i = .hostPerfReport ∨
      ∃ l n, i = .hostScanChannels l n) ∧
    (t.dacA ≠ s.dacA → ∃ c, i = .hostDacWrite 0 c) ∧
    (t.dacB ≠ s.dacB → ∃ c, i = .hostDacWrite 1 c) ∧
    (t.scan ≠ s.scan → ∃ l n, i = .hostScanChannels l n) ∧
    (t.cfg.scanMode ≠ s.cfg.scanMode → i = .hostInit ∨ ∃ m, i = .hostSetScanMode m) ∧
    ((t.cfg.gain ≠ s.cfg.gain ∨ t.cfg.drate ≠ s.cfg.drate ∨ t.cfg.bufen ≠ s.cfg.bufen) →
      (∃ g d b, i = .hostConfigure g d b) ∨ i = .hostInit ∨ i = .hostReset ∨ i = .adcReset ∨
        i = .hostWriteCmd s.par.cmdReset) ∧
    (t.contMode ≠ s.contMode → i = .hostInit ∨ i = .hostReset ∨ i = .adcRdatac ∨ i = .adcSdatac ∨
      i = .adcReset ∨ i = .hostWriteCmd s.par.cmdRdatac ∨ i = .hostWriteCmd s.par.cmdSdatac ∨
      i = .hostWriteCmd s.par.cmdReset) ∧
    ((t.acq.ch ≠ s.acq.ch ∨ t.acq.mux ≠ s.acq.mux ∨ t.acq.lastSample ≠ s.acq.lastSample ∨
        t.acq.settleN ≠ s.acq.settleN ∨ t.acq.settleK ≠ s.acq.settleK) →
      (∃ ch, i = .hostReadChannel ch) ∨ ∃ l n, i = .hostScanChannels l n) ∧
    (t.lines.held ≠ s.lines.held → i = .hostInit ∨ i = .hostShutdown)

/-- R17, R46, R47: no step writes the parameters, shortens or rewrites a log or the responses, or turns the
clock back. -/
def Obligations.LogsOnlyGrow : Prop :=
  ∀ s t : State, step s = .next t →
    t.par = s.par ∧ s.trace <+: t.trace ∧ s.warnLog <+: t.warnLog ∧ s.responses <+: t.responses ∧
      s.oracle.lastTick ≤ t.oracle.lastTick

/-- R134: what the monitor holds changes nothing an operation does outside the monitor, and no answer but
HOST.PERF_REPORT's. -/
def Obligations.MonitorDoesNotInterfere : Prop :=
  ∀ (i : Instr) (s t : State) (m : Mon), exec i s = .next t →
    ∃ t', exec i { s with mon := m } = .next t' ∧
      t'.trace = t.trace ∧ t'.warnLog = t.warnLog ∧ t'.hstate = t.hstate ∧ t'.cfg = t.cfg ∧
      t'.acq = t.acq ∧ t'.contMode = t.contMode ∧ t'.scan = t.scan ∧ t'.lines = t.lines ∧
      t'.dacA = t.dacA ∧ t'.dacB = t.dacB ∧ (i ≠ .hostPerfReport → t'.responses = t.responses)

/-- R57, R157: what the registers that reset leaves without a value hold changes nothing else an operation
does: no operation reads RESULT, ACQ_CH, ACQ_MUX, LAST_SAMPLE or DAC_SHADOW before it writes it. -/
def Obligations.UnwrittenRegistersAreNeverRead : Prop :=
  ∀ (i : Instr) (s t : State) (r : Vector (Option Sample) 8) (ch : Option Int) (mux : Option Byte)
    (v : Option Sample) (a b : Option DacCode), exec i s = .next t →
    ∃ t', exec i { s with
        acq := { s.acq with ch := ch, mux := mux, lastSample := v }
        scan := { s.scan with result := r }
        dacA := a
        dacB := b } = .next t' ∧
      { t' with
        acq := { t'.acq with ch := t.acq.ch, mux := t.acq.mux, lastSample := t.acq.lastSample }
        scan := { t'.scan with result := t.scan.result }
        dacA := t.dacA
        dacB := t.dacB } = t

/-! ### Invariants -/

/-- R24, R25, R26, R33, R34, R36, R44: every step keeps the control invariant. -/
def Obligations.StepKeepsControlInv : Prop :=
  ∀ s t : State, ControlInv s → step s = .next t → ControlInv t

/-- R37, R38, R57, R89, R90: every step keeps the sample invariant. -/
def Obligations.StepKeepsSampleInv : Prop :=
  ∀ s t : State, SampleInv s → step s = .next t → SampleInv t

/-- R40, R41, R134 to R140: every step keeps the monitor's invariant. -/
def Obligations.StepKeepsMonInv : Prop :=
  ∀ s t : State, MonInv s → step s = .next t → MonInv t

/-- R66, R79, R86, R93, R159, R182: every step keeps the logs legal: the block emits no transaction but
those of R66, every read with its gap, and appends no warning and no payload but the legal ones. -/
def Obligations.StepKeepsLogInv : Prop :=
  ∀ s t : State, LogInv s → step s = .next t → LogInv t

/-- R35, R99, R100, R191: every step keeps CONT_MODE in agreement with the reference chip of the trace
while the handle is READY (log 16). -/
def Obligations.StepKeepsContInv : Prop :=
  ∀ s t : State, ContInv s → step s = .next t → ContInv t

/-- R70, R178: after a HOST.INIT, HOST.RESET, WRITE_CMD RESET or HOST.CONFIGURE that answers OK, the
register file describes the reference chip of the trace (log 16); every other host operation but an admitted
HOST.WRITE_REG of STATUS, ADCON or DRATE keeps that on a READY handle. The STATUS_BYTE and ADCON_BYTE tables are those of a layout in
which this chip has BUFEN and PGA (R49, R51). -/
def Obligations.RegisterFileDescribesChip : Prop :=
  ∀ (s t : State) (i : Instr), ContInv s → ControlInv s → fitsChip s.par = true → exec i s = .next t →
    i.isHost = true → t.hstate = .ready →
    ((i = .hostInit ∨ i = .hostReset ∨ i = .hostWriteCmd s.par.cmdReset ∨
        ∃ g d b, i = .hostConfigure g d b) →
      t.responses.getLast?.map (·.status) = some .ok →
      t.cfg.describes t.par (chipAfter t.par t.trace) = true) ∧
    ((∀ a v, i = .hostWriteReg a v → refusalOf s i = none →
        a ≠ s.par.regStatus ∧ a ≠ s.par.regAdcon ∧ a ≠ s.par.regDrate) → s.hstate = .ready →
      s.cfg.describes s.par (chipAfter s.par s.trace) = true →
      t.cfg.describes t.par (chipAfter t.par t.trace) = true)

/-- The state after reset meets every invariant. -/
def Obligations.ResetMeetsInvariants : Prop :=
  ControlInv State.reset ∧ SampleInv State.reset ∧ MonInv State.reset ∧ LogInv State.reset ∧
    ContInv State.reset

/-- R55, R56: the values power-on reset leaves. RESULT, ACQ_CH, ACQ_MUX and LAST_SAMPLE hold the rule's "no
value", written `none` (log 10). -/
def Obligations.PowerOnValues : Prop :=
  State.reset.hstate = .uninit ∧
  State.reset.cfg = ⟨0#3, 0#4, 0#1, .se⟩ ∧
  State.reset.acq = ⟨.idle, 0#8, 0#8, 0, none, none, none⟩ ∧
  State.reset.contMode = false ∧
  State.reset.scan = ⟨[], 0, 0, 0#8, Vector.replicate 8 none⟩ ∧
  State.reset.dacA = none ∧ State.reset.dacB = none ∧
  State.reset.mon = ⟨false, 0, 0, 0, 0, 0, 0, 0, 0, .noData⟩ ∧
  State.reset.lines = ⟨false, .rel, .rel, .rel⟩ ∧
  State.reset.warnLog = [] ∧ State.reset.trace = []

/-! ### The parameters' layouts and the reference chip -/

/-- R29, R49, R51, R91, R92: what the STATUS_BYTE, ADCON_BYTE and DRATE_BYTE tables and the ID field's position
are by default: `0x04 | bufen << 1`, the gain code, R29's sixteen bytes, and STATUS[7:4]. -/
def Obligations.ConfigurationBytes : Prop :=
  ∀ (b : BitVec 1) (g : GainCode) (v : Byte),
    statusByte Params.default b = 0x04#8 ||| (b.zeroExtend 8 <<< 1) ∧
    adconByte Params.default g = g.zeroExtend 8 ∧
    ((List.finRange 16).map fun i => drateByte Params.default (BitVec.ofFin i)) =
      [0xF0#8, 0xE0#8, 0xD0#8, 0xC0#8, 0xB0#8, 0xA1#8, 0x92#8, 0x82#8,
        0x72#8, 0x63#8, 0x53#8, 0x43#8, 0x33#8, 0x23#8, 0x13#8, 0x03#8] ∧
    (chipIdOf Params.default v).toNat = v.toNat / 16 ∧ fitsChip Params.default = true

/-- R53 with R48, R49 and R51: on a READY handle outside continuous mode, where the answers since are the
reference chip's (log 16), a register read after a write of it answers the value written; STATUS keeps its
other bits from before, bit 0 aside, of ADCON bit 7 is open (log 29), and a calibration word may have been
replaced by a calibration still running (log 27). -/
def Obligations.ReferenceChipReadsBack : Prop :=
  ∀ (s t u : State) (a : RegAddr) (v b : Byte) (evs : List Event), ContInv s → s.hstate = .ready →
    s.contMode = false → a ∈ s.par.regs →
    exec (.hostWriteReg a v) s = .next t → exec (.hostReadReg a) t = .next u →
    u.responses.getLast? = some ⟨.ok, .value b⟩ → u.trace = s.trace ++ evs →
    chipConsistent s.par (chipAfter s.par s.trace) evs = true →
    (a = s.par.regMux ∨ a = s.par.regDrate ∨ a = s.par.regIo → b = v) ∧
    (a = s.par.regAdcon → b.extractLsb' 0 7 = v.extractLsb' 0 7) ∧
    (a = s.par.regStatus → b.extractLsb' 1 3 = v.extractLsb' 1 3 ∧
      b.extractLsb' 4 4 = (chipAfter s.par s.trace).status.extractLsb' 4 4) ∧
    (a ∈ s.par.calRegs → (chipAfter s.par s.trace).calibrating = false → b = v)

/-- R8, R48, R85: the constants, and the parameters' values at reset. That the parameters stand in State and
hold their defaults at reset is log 3's choice, which also gives T11_MIN, T_RST_LOW and T_RST_HIGH their
defaults, in microseconds (log 24); the chip-side numbers are log 9's. TICK_HZ, DEADLINE_US and ROUND are OPEN
and have no value here. -/
def Obligations.ParameterDefaults : Prop :=
  let p := State.reset.par
  (fullScale = 2 ^ 23 ∧ gainTable = [1, 2, 4, 8, 16, 32, 64] ∧ seChannels = 8 ∧ diffChannels = 4 ∧
    maxScan = 8 ∧ settleMax = 255) ∧
  (p.waitMode = .polls ∧ p.pollLimit = 4000000 ∧ p.t6Min = 7 ∧ p.optN = 3#8 ∧
    p.settleDiscardRead = true ∧ p.chipId = 3#4 ∧ p.fillByte = 0x00#8 ∧ p.aincomCode = 0x8#4 ∧
    p.dacCtrlA = 0x30#8 ∧ p.dacCtrlB = 0x34#8) ∧
  (p.effExcellent = 85 ∧ p.effGood = 70 ∧ p.effFair = 50) ∧
  (p.t11Min * 768 = 24 * 100 ∧ p.tRstLow = 200000 ∧ p.tRstHigh = 200000) ∧
  (p.cmdWakeup = 0x00#8 ∧ p.cmdRdata = 0x01#8 ∧ p.cmdRdatac = 0x03#8 ∧ p.cmdSdatac = 0x0F#8 ∧
    p.cmdRreg = 0x10#8 ∧ p.cmdWreg = 0x50#8 ∧ p.cmdSelfcal = 0xF0#8 ∧ p.cmdSync = 0xFC#8 ∧
    p.cmdReset = 0xFE#8) ∧
  (p.regs = [0x0#4, 0x1#4, 0x2#4, 0x3#4, 0x4#4, 0x5#4, 0x6#4, 0x7#4, 0x8#4, 0x9#4, 0xA#4] ∧
    p.regCount = 11) ∧
  (p.muxSe = muxSeDefault ∧ p.muxDiff = muxDiffDefault ∧ p.nselLsb = 0 ∧ p.idLsb = 4 ∧
    p.statusByte = statusByteDefault ∧ p.adconByte = adconByteDefault ∧ p.drateByte = drateByteDefault) ∧
  p.wf = true
end

