-- ==== Sys2Proof/Laws/Decode.lean ====
section
/-! SUPPORT. The facts of a sound parameter record, the nibbles and bytes of a frame, and what the decoder
reads from each frame the encoder writes (spec/30_encoding.md R83 to R88). -/

namespace Sys2Proof

/-! ### Bytes and nibbles -/

theorem append_toNat (high low : Byte) :
    (high ++ low : BitVec 16).toNat = high.toNat * 256 + low.toNat := by
  have h : (high ++ low : BitVec (8 + 8)).toNat = high.toNat <<< 8 ||| low.toNat :=
    BitVec.toNat_append ..
  rw [show (high ++ low : BitVec 16).toNat = _ from h, ← Nat.shiftLeft_add_eq_or_of_lt low.isLt,
    Nat.shiftLeft_eq]

/-- R63: the high byte of a DAC code is sent first. -/
theorem extract_high (high low : Byte) : (high ++ low : BitVec 16).extractLsb' 8 8 = high := by
  apply BitVec.eq_of_toNat_eq
  have := low.isLt
  have := high.isLt
  rw [BitVec.extractLsb'_toNat, append_toNat, Nat.shiftRight_eq_div_pow]
  omega

theorem extract_low (high low : Byte) : (high ++ low : BitVec 16).extractLsb' 0 8 = low := by
  apply BitVec.eq_of_toNat_eq
  have := low.isLt
  have := high.isLt
  rw [BitVec.extractLsb'_toNat, append_toNat]
  simp
  omega

theorem append_extract (code : DacCode) :
    (code.extractLsb' 8 8 ++ code.extractLsb' 0 8 : BitVec 16) = code := by
  apply BitVec.eq_of_toNat_eq
  have := code.isLt
  rw [append_toNat, BitVec.extractLsb'_toNat, BitVec.extractLsb'_toNat, Nat.shiftRight_eq_div_pow]
  simp
  omega

theorem hiNibble_regOpByte (opc : Byte) (a : RegAddr) : hiNibble (regOpByte opc a) = hiNibble opc := by
  apply BitVec.eq_of_getLsbD_eq
  intro i hi
  simp [hiNibble, regOpByte, hi]

theorem loNibble_regOpByte {opc : Byte} (h : loNibble opc = 0#4) (a : RegAddr) :
    loNibble (regOpByte opc a) = a := by
  apply BitVec.eq_of_getLsbD_eq
  intro i hi
  have := congrArg (·.getLsbD i) h
  simp [loNibble, hi] at this
  simp [loNibble, regOpByte, hi, this]
  omega

theorem regOpByte_loNibble {opc first : Byte} (h : loNibble opc = 0#4)
    (hf : hiNibble first = hiNibble opc) : regOpByte opc (loNibble first) = first := by
  apply BitVec.eq_of_getLsbD_eq
  intro i hi
  by_cases hlt : i < 4
  · have := congrArg (·.getLsbD i) h
    simp [loNibble, hlt] at this
    simp [loNibble, regOpByte, hlt, this]
    omega
  · have := congrArg (·.getLsbD (i - 4)) hf
    simp [hiNibble, show i - 4 < 4 by omega, show 4 + (i - 4) = i by omega] at this
    simp [loNibble, regOpByte, hlt, this]

theorem byte_of_nibbles {b : Byte} (hh : hiNibble b = 0#4) (hl : loNibble b = 0#4) : b = 0x00#8 := by
  simpa [regOpByte, hl] using (regOpByte_loNibble (opc := 0#8) rfl (hh.trans rfl)).symm

/-! ### Sound parameters -/

/-- What `Params.wf` says, as propositions. -/
structure Params.Sound (p : Params) : Prop where
  soloNodup : p.soloBytes.Nodup
  soloHigh : ∀ b ∈ p.soloBytes,
    hiNibble b ≠ hiNibble p.cmdRreg ∧ hiNibble b ≠ hiNibble p.cmdWreg
  opcodesDiffer : hiNibble p.cmdRreg ≠ hiNibble p.cmdWreg
  rregLow : loNibble p.cmdRreg = 0#4
  wregLow : loNibble p.cmdWreg = 0#4
  addrNodup : p.regs.Nodup
  addrLt : ∀ a ∈ p.regs, a.toNat < p.regCount
  ctrlDiffer : p.dacCtrlA ≠ p.dacCtrlB
  drate0 : p.drateByte[0] = 0xF0#8
  drate7 : p.drateByte[7] = 0x82#8
  drate15 : p.drateByte[15] = 0x03#8
  optN_ne : p.optN ≠ 0#8
  ticks : 0 < p.tickHz

theorem Params.sound {p : Params} (h : p.wf = true) : p.Sound := by
  simp only [Params.wf, Bool.and_eq_true, decide_eq_true_eq, List.all_eq_true, bne_iff_ne,
    beq_iff_eq] at h
  obtain ⟨⟨⟨⟨⟨⟨⟨⟨⟨⟨⟨⟨h1, h2⟩, h3⟩, h4⟩, h5⟩, h6⟩, h7⟩, h8⟩, h9⟩, h10⟩, h11⟩, h12⟩, h13⟩ := h
  exact ⟨h1, h2, h3, h4, h5, h6, h7, h8, h9, h10, h11, h12, h13⟩

/-! ### What the decoder reads -/

/-- The solo bytes, each as its command. -/
theorem decodeSolo_solo {p : Params} (h : p.soloBytes.Nodup) :
    decodeSolo p p.cmdWakeup = some .adcWakeup ∧ decodeSolo p p.cmdRdata = some .adcRdata ∧
      decodeSolo p p.cmdRdatac = some .adcRdatac ∧ decodeSolo p p.cmdSdatac = some .adcSdatac ∧
      decodeSolo p p.cmdSelfcal = some .adcSelfcal ∧ decodeSolo p p.cmdSync = some .adcSync ∧
      decodeSolo p p.cmdReset = some .adcReset := by
  simp [Params.soloBytes] at h
  refine ⟨?_, ?_, ?_, ?_, ?_, ?_, ?_⟩ <;> unfold decodeSolo <;> simp_all [Ne.symm, eq_comm]

/-- A byte that spells a solo command is that command's byte. -/
theorem decodeSolo_some {p : Params} {b : Byte} {i : Instr} (h : decodeSolo p b = some i) :
    b ∈ p.soloBytes ∧ encode p i = .wire (.adc [b]) ∧ i.wellFormed p = true ∧ i.isHost = false := by
  unfold decodeSolo at h
  (repeat' split at h) <;> simp at h <;> subst h <;>
    simp_all [Params.soloBytes, encode, Instr.wellFormed, Instr.isHost]

theorem decodeSolo_none {p : Params} {b : Byte} (h : b ∉ p.soloBytes) : decodeSolo p b = none := by
  simp [Params.soloBytes] at h
  unfold decodeSolo
  simp_all

/-- The first byte of a register frame spells no solo command. -/
theorem regOpByte_not_solo {p : Params} (h : p.Sound) (a : RegAddr) :
    regOpByte p.cmdRreg a ∉ p.soloBytes ∧ regOpByte p.cmdWreg a ∉ p.soloBytes :=
  ⟨fun hm => (h.soloHigh _ hm).1 (hiNibble_regOpByte _ _),
    fun hm => (h.soloHigh _ hm).2 (hiNibble_regOpByte _ _)⟩

theorem decodeRegister_ok {p : Params} {first : Byte} (h : (loNibble first).toNat < p.regCount) :
    decodeRegister p first countByte = .ok (loNibble first) := by
  rw [decodeRegister, if_neg (by decide), if_neg (by decide), if_pos h]

/-- R101: the frame of an RREG. -/
theorem decodeAdc_rreg {p : Params} (h : p.Sound) {a : RegAddr} (ha : a.toNat < p.regCount) :
    decodeAdc p (rregBytes p a) = .ok (.adcRreg a) := by
  have hl := loNibble_regOpByte h.rregLow a
  simp only [decodeAdc, rregBytes, decodeSolo_none (regOpByte_not_solo h a).1, hiNibble_regOpByte,
    if_true, decodeRegister_ok (p := p) (first := regOpByte p.cmdRreg a) (by rwa [hl]), hl]
  rfl

/-- R102: the frame of a WREG. -/
theorem decodeAdc_wreg {p : Params} (h : p.Sound) {a : RegAddr} (ha : a.toNat < p.regCount) (v : Byte) :
    decodeAdc p (wregBytes p a v) = .ok (.adcWreg a v) := by
  have hl := loNibble_regOpByte h.wregLow a
  simp only [decodeAdc, wregBytes, decodeSolo_none (regOpByte_not_solo h a).2, hiNibble_regOpByte,
    Ne.symm h.opcodesDiffer, if_false, if_true,
    decodeRegister_ok (p := p) (first := regOpByte p.cmdWreg a) (by rwa [hl]), hl]
  rfl

end Sys2Proof
end

