-- ==== Sys2Proof/Laws/ChipRef.lean ====
section
/-! SUPPORT. What the reference chip's own operations leave alone (spec/10_state.md R53), and what it does
on the frames of a register command. -/

namespace Sys2Proof.Machine

/-! ### Restarts, calibrations and what an answer shows -/

@[simp] theorem Chip.restart_status (c : Chip) : (c.restart).status = c.status := rfl
@[simp] theorem Chip.restart_mux (c : Chip) : (c.restart).mux = c.mux := rfl
@[simp] theorem Chip.restart_adcon (c : Chip) : (c.restart).adcon = c.adcon := rfl
@[simp] theorem Chip.restart_drate (c : Chip) : (c.restart).drate = c.drate := rfl
@[simp] theorem Chip.restart_io (c : Chip) : (c.restart).io = c.io := rfl
@[simp] theorem Chip.restart_halted (c : Chip) : (c.restart).halted = c.halted := rfl
@[simp] theorem Chip.restart_cont (c : Chip) : (c.restart).cont = c.cont := rfl
@[simp] theorem Chip.restart_cal (c : Chip) : (c.restart).cal = c.cal := rfl
@[simp] theorem Chip.restart_calibrating (c : Chip) :
    (c.restart).calibrating = c.calibrating := rfl

@[simp] theorem Chip.calibrate_status (c : Chip) : (c.calibrate).status = c.status := rfl
@[simp] theorem Chip.calibrate_mux (c : Chip) : (c.calibrate).mux = c.mux := rfl
@[simp] theorem Chip.calibrate_adcon (c : Chip) : (c.calibrate).adcon = c.adcon := rfl
@[simp] theorem Chip.calibrate_drate (c : Chip) : (c.calibrate).drate = c.drate := rfl
@[simp] theorem Chip.calibrate_io (c : Chip) : (c.calibrate).io = c.io := rfl
@[simp] theorem Chip.calibrate_halted (c : Chip) : (c.calibrate).halted = c.halted := rfl
@[simp] theorem Chip.calibrate_cont (c : Chip) : (c.calibrate).cont = c.cont := rfl

@[simp] theorem Chip.autoCalibrate_status (b : Bool) (c : Chip) :
    (c.autoCalibrate b).status = c.status := by cases b <;> rfl
@[simp] theorem Chip.autoCalibrate_mux (b : Bool) (c : Chip) :
    (c.autoCalibrate b).mux = c.mux := by cases b <;> rfl
@[simp] theorem Chip.autoCalibrate_adcon (b : Bool) (c : Chip) :
    (c.autoCalibrate b).adcon = c.adcon := by cases b <;> rfl
@[simp] theorem Chip.autoCalibrate_drate (b : Bool) (c : Chip) :
    (c.autoCalibrate b).drate = c.drate := by cases b <;> rfl
@[simp] theorem Chip.autoCalibrate_io (b : Bool) (c : Chip) :
    (c.autoCalibrate b).io = c.io := by cases b <;> rfl
@[simp] theorem Chip.autoCalibrate_halted (b : Bool) (c : Chip) :
    (c.autoCalibrate b).halted = c.halted := by cases b <;> rfl
@[simp] theorem Chip.autoCalibrate_cont (b : Bool) (c : Chip) :
    (c.autoCalibrate b).cont = c.cont := by cases b <;> rfl

@[simp] theorem Chip.seeLevel_status (c : Chip) (l : Level) :
    (c.seeLevel l).status = c.status := rfl
@[simp] theorem Chip.seeLevel_mux (c : Chip) (l : Level) : (c.seeLevel l).mux = c.mux := rfl
@[simp] theorem Chip.seeLevel_adcon (c : Chip) (l : Level) : (c.seeLevel l).adcon = c.adcon := rfl
@[simp] theorem Chip.seeLevel_drate (c : Chip) (l : Level) : (c.seeLevel l).drate = c.drate := rfl
@[simp] theorem Chip.seeLevel_io (c : Chip) (l : Level) : (c.seeLevel l).io = c.io := rfl
@[simp] theorem Chip.seeLevel_halted (c : Chip) (l : Level) :
    (c.seeLevel l).halted = c.halted := rfl
@[simp] theorem Chip.seeLevel_cont (c : Chip) (l : Level) : (c.seeLevel l).cont = c.cont := rfl
@[simp] theorem Chip.seeLevel_cal (c : Chip) (l : Level) : (c.seeLevel l).cal = c.cal := rfl
@[simp] theorem Chip.seeLevel_code (c : Chip) (l : Level) : (c.seeLevel l).code = c.code := rfl

@[simp] theorem Chip.readCode_status (v : BitVec 24) (c : Chip) :
    (c.readCode v).status = c.status := rfl
@[simp] theorem Chip.readCode_mux (v : BitVec 24) (c : Chip) : (c.readCode v).mux = c.mux := rfl
@[simp] theorem Chip.readCode_adcon (v : BitVec 24) (c : Chip) :
    (c.readCode v).adcon = c.adcon := rfl
@[simp] theorem Chip.readCode_drate (v : BitVec 24) (c : Chip) :
    (c.readCode v).drate = c.drate := rfl
@[simp] theorem Chip.readCode_io (v : BitVec 24) (c : Chip) : (c.readCode v).io = c.io := rfl
@[simp] theorem Chip.readCode_halted (v : BitVec 24) (c : Chip) :
    (c.readCode v).halted = c.halted := rfl
@[simp] theorem Chip.readCode_cont (v : BitVec 24) (c : Chip) : (c.readCode v).cont = c.cont := rfl
@[simp] theorem Chip.readCode_cal (v : BitVec 24) (c : Chip) : (c.readCode v).cal = c.cal := rfl
@[simp] theorem Chip.readCode_calibrating (v : BitVec 24) (c : Chip) :
    (c.readCode v).calibrating = c.calibrating := rfl

@[simp] theorem Chip.learn_status (p : Params) (a : RegAddr) (v : Byte) (c : Chip) :
    (c.learn p a v).status = c.status := by
  unfold Chip.learn; (repeat' split) <;> rfl
@[simp] theorem Chip.learn_mux (p : Params) (a : RegAddr) (v : Byte) (c : Chip) :
    (c.learn p a v).mux = c.mux := by
  unfold Chip.learn; (repeat' split) <;> rfl
@[simp] theorem Chip.learn_adcon (p : Params) (a : RegAddr) (v : Byte) (c : Chip) :
    (c.learn p a v).adcon = c.adcon := by
  unfold Chip.learn; (repeat' split) <;> rfl
@[simp] theorem Chip.learn_drate (p : Params) (a : RegAddr) (v : Byte) (c : Chip) :
    (c.learn p a v).drate = c.drate := by
  unfold Chip.learn; (repeat' split) <;> rfl
@[simp] theorem Chip.learn_io (p : Params) (a : RegAddr) (v : Byte) (c : Chip) :
    (c.learn p a v).io = c.io := by
  unfold Chip.learn; (repeat' split) <;> rfl
@[simp] theorem Chip.learn_halted (p : Params) (a : RegAddr) (v : Byte) (c : Chip) :
    (c.learn p a v).halted = c.halted := by
  unfold Chip.learn; (repeat' split) <;> rfl
@[simp] theorem Chip.learn_cont (p : Params) (a : RegAddr) (v : Byte) (c : Chip) :
    (c.learn p a v).cont = c.cont := by
  unfold Chip.learn; (repeat' split) <;> rfl
@[simp] theorem Chip.learn_code (p : Params) (a : RegAddr) (v : Byte) (c : Chip) :
    (c.learn p a v).code = c.code := by
  unfold Chip.learn; (repeat' split) <;> rfl

/-- A register write does not change the chip's mode. -/
@[simp] theorem Chip.writeReg_cont (p : Params) (a : RegAddr) (v : Byte) (c : Chip) :
    (c.writeReg p a v).cont = c.cont := by
  unfold Chip.writeReg; (repeat' split) <;> simp

@[simp] theorem Chip.writeReg_halted (p : Params) (a : RegAddr) (v : Byte) (c : Chip) :
    (c.writeReg p a v).halted = c.halted := by
  unfold Chip.writeReg; (repeat' split) <;> simp

@[simp] theorem fits_none {α : Type} [DecidableEq α] (v : α) : fits none v = true := rfl

theorem fits_some {α : Type} [DecidableEq α] {u v : α} : fits (some u) v = true ↔ u = v := by simp [fits]

/-! ### Register commands -/

/-- R53: a WREG writes the register, outside continuous-read mode. -/
theorem Chip.see_wreg {p : Params} (h : p.wf = true) {a : RegAddr} (ha : a.toNat < p.regCount) (v : Byte)
    {c : Chip} (hc : c.cont = false) (gap : Bool) (inp : List Byte) :
    c.see p (.tx .adc (wregBytes p a v) gap inp) = c.writeReg p a v := by
  simp [Chip.see, decodeAdc_wreg (Params.sound h) ha, Chip.command, hc]

/-- R53: an RREG answers the register, outside continuous-read mode. -/
theorem Chip.answers_rreg {p : Params} (h : p.wf = true) {a : RegAddr} (ha : a.toNat < p.regCount)
    (v : Byte) {c : Chip} (hc : c.cont = false) (gap : Bool) :
    c.answers p (.tx .adc (rregBytes p a) gap [v]) = c.mayRead p a v := by
  simp [Chip.answers, decodeAdc_rreg (Params.sound h) ha, hc]

end Sys2Proof.Machine
end

