-- ==== Sys2Proof/Laws/State.lean ====
section
/-! SUPPORT. One lemma per field per update of State, so that no proof unfolds a record update. -/

namespace Sys2Proof.Machine

variable (s : State)

/-! ### emit -/

@[simp] theorem emit_par (e : Event) : (s.emit e).par = s.par := rfl
@[simp] theorem emit_hstate (e : Event) : (s.emit e).hstate = s.hstate := rfl
@[simp] theorem emit_cfg (e : Event) : (s.emit e).cfg = s.cfg := rfl
@[simp] theorem emit_acq (e : Event) : (s.emit e).acq = s.acq := rfl
@[simp] theorem emit_contMode (e : Event) : (s.emit e).contMode = s.contMode := rfl
@[simp] theorem emit_scan (e : Event) : (s.emit e).scan = s.scan := rfl
@[simp] theorem emit_dacA (e : Event) : (s.emit e).dacA = s.dacA := rfl
@[simp] theorem emit_dacB (e : Event) : (s.emit e).dacB = s.dacB := rfl
@[simp] theorem emit_mon (e : Event) : (s.emit e).mon = s.mon := rfl
@[simp] theorem emit_lines (e : Event) : (s.emit e).lines = s.lines := rfl
@[simp] theorem emit_warnLog (e : Event) : (s.emit e).warnLog = s.warnLog := rfl
@[simp] theorem emit_trace (e : Event) : (s.emit e).trace = s.trace ++ [e] := rfl
@[simp] theorem emit_reqPort (e : Event) : (s.emit e).reqPort = s.reqPort := rfl
@[simp] theorem emit_responses (e : Event) : (s.emit e).responses = s.responses := rfl
@[simp] theorem emit_hostScript (e : Event) : (s.emit e).hostScript = s.hostScript := rfl
@[simp] theorem emit_wireSlot (e : Event) : (s.emit e).wireSlot = s.wireSlot := rfl
@[simp] theorem emit_oracle (e : Event) : (s.emit e).oracle = s.oracle := rfl

/-! ### warn -/

@[simp] theorem warn_par (w : Warning) : (s.warn w).par = s.par := rfl
@[simp] theorem warn_hstate (w : Warning) : (s.warn w).hstate = s.hstate := rfl
@[simp] theorem warn_cfg (w : Warning) : (s.warn w).cfg = s.cfg := rfl
@[simp] theorem warn_acq (w : Warning) : (s.warn w).acq = s.acq := rfl
@[simp] theorem warn_contMode (w : Warning) : (s.warn w).contMode = s.contMode := rfl
@[simp] theorem warn_scan (w : Warning) : (s.warn w).scan = s.scan := rfl
@[simp] theorem warn_dacA (w : Warning) : (s.warn w).dacA = s.dacA := rfl
@[simp] theorem warn_dacB (w : Warning) : (s.warn w).dacB = s.dacB := rfl
@[simp] theorem warn_mon (w : Warning) : (s.warn w).mon = s.mon := rfl
@[simp] theorem warn_lines (w : Warning) : (s.warn w).lines = s.lines := rfl
@[simp] theorem warn_warnLog (w : Warning) : (s.warn w).warnLog = s.warnLog ++ [w] := rfl
@[simp] theorem warn_trace (w : Warning) : (s.warn w).trace = s.trace := rfl
@[simp] theorem warn_reqPort (w : Warning) : (s.warn w).reqPort = s.reqPort := rfl
@[simp] theorem warn_responses (w : Warning) : (s.warn w).responses = s.responses := rfl
@[simp] theorem warn_hostScript (w : Warning) : (s.warn w).hostScript = s.hostScript := rfl
@[simp] theorem warn_wireSlot (w : Warning) : (s.warn w).wireSlot = s.wireSlot := rfl
@[simp] theorem warn_oracle (w : Warning) : (s.warn w).oracle = s.oracle := rfl

/-! ### respond -/

@[simp] theorem respond_par (st : Status) (pl : Payload) : (s.respond st pl).par = s.par := rfl
@[simp] theorem respond_hstate (st : Status) (pl : Payload) : (s.respond st pl).hstate = s.hstate := rfl
@[simp] theorem respond_cfg (st : Status) (pl : Payload) : (s.respond st pl).cfg = s.cfg := rfl
@[simp] theorem respond_acq (st : Status) (pl : Payload) : (s.respond st pl).acq = s.acq := rfl
@[simp] theorem respond_contMode (st : Status) (pl : Payload) : (s.respond st pl).contMode = s.contMode := rfl
@[simp] theorem respond_scan (st : Status) (pl : Payload) : (s.respond st pl).scan = s.scan := rfl
@[simp] theorem respond_dacA (st : Status) (pl : Payload) : (s.respond st pl).dacA = s.dacA := rfl
@[simp] theorem respond_dacB (st : Status) (pl : Payload) : (s.respond st pl).dacB = s.dacB := rfl
@[simp] theorem respond_mon (st : Status) (pl : Payload) : (s.respond st pl).mon = s.mon := rfl
@[simp] theorem respond_lines (st : Status) (pl : Payload) : (s.respond st pl).lines = s.lines := rfl
@[simp] theorem respond_warnLog (st : Status) (pl : Payload) : (s.respond st pl).warnLog = s.warnLog := rfl
@[simp] theorem respond_trace (st : Status) (pl : Payload) : (s.respond st pl).trace = s.trace := rfl
@[simp] theorem respond_reqPort (st : Status) (pl : Payload) : (s.respond st pl).reqPort = s.reqPort := rfl
@[simp] theorem respond_responses (st : Status) (pl : Payload) :
    (s.respond st pl).responses = s.responses ++ [⟨st, pl⟩] := rfl
@[simp] theorem respond_hostScript (st : Status) (pl : Payload) :
    (s.respond st pl).hostScript = s.hostScript := rfl
@[simp] theorem respond_wireSlot (st : Status) (pl : Payload) : (s.respond st pl).wireSlot = s.wireSlot := rfl
@[simp] theorem respond_oracle (st : Status) (pl : Payload) : (s.respond st pl).oracle = s.oracle := rfl

/-! ### refuse -/

@[simp] theorem refuse_par (st : Status) : (s.refuse st).par = s.par := rfl
@[simp] theorem refuse_hstate (st : Status) : (s.refuse st).hstate = s.hstate := rfl
@[simp] theorem refuse_cfg (st : Status) : (s.refuse st).cfg = s.cfg := rfl
@[simp] theorem refuse_acq (st : Status) : (s.refuse st).acq = s.acq := rfl
@[simp] theorem refuse_contMode (st : Status) : (s.refuse st).contMode = s.contMode := rfl
@[simp] theorem refuse_scan (st : Status) : (s.refuse st).scan = s.scan := rfl
@[simp] theorem refuse_dacA (st : Status) : (s.refuse st).dacA = s.dacA := rfl
@[simp] theorem refuse_dacB (st : Status) : (s.refuse st).dacB = s.dacB := rfl
@[simp] theorem refuse_mon (st : Status) : (s.refuse st).mon = s.mon := rfl
@[simp] theorem refuse_lines (st : Status) : (s.refuse st).lines = s.lines := rfl
@[simp] theorem refuse_warnLog (st : Status) : (s.refuse st).warnLog = s.warnLog := rfl
@[simp] theorem refuse_trace (st : Status) : (s.refuse st).trace = s.trace := rfl
@[simp] theorem refuse_reqPort (st : Status) : (s.refuse st).reqPort = s.reqPort := rfl
@[simp] theorem refuse_responses (st : Status) : (s.refuse st).responses = s.responses ++ [⟨st, .none⟩] := rfl
@[simp] theorem refuse_hostScript (st : Status) : (s.refuse st).hostScript = s.hostScript := rfl
@[simp] theorem refuse_wireSlot (st : Status) : (s.refuse st).wireSlot = s.wireSlot := rfl
@[simp] theorem refuse_oracle (st : Status) : (s.refuse st).oracle = s.oracle := rfl

/-! ### setHState -/

@[simp] theorem setHState_par (h : HState) : (s.setHState h).par = s.par := rfl
@[simp] theorem setHState_hstate (h : HState) : (s.setHState h).hstate = h := rfl
@[simp] theorem setHState_cfg (h : HState) : (s.setHState h).cfg = s.cfg := rfl
@[simp] theorem setHState_acq (h : HState) : (s.setHState h).acq = s.acq := rfl
@[simp] theorem setHState_contMode (h : HState) : (s.setHState h).contMode = s.contMode := rfl
@[simp] theorem setHState_scan (h : HState) : (s.setHState h).scan = s.scan := rfl
@[simp] theorem setHState_dacA (h : HState) : (s.setHState h).dacA = s.dacA := rfl
@[simp] theorem setHState_dacB (h : HState) : (s.setHState h).dacB = s.dacB := rfl
@[simp] theorem setHState_mon (h : HState) : (s.setHState h).mon = s.mon := rfl
@[simp] theorem setHState_lines (h : HState) : (s.setHState h).lines = s.lines := rfl
@[simp] theorem setHState_warnLog (h : HState) : (s.setHState h).warnLog = s.warnLog := rfl
@[simp] theorem setHState_trace (h : HState) : (s.setHState h).trace = s.trace := rfl
@[simp] theorem setHState_reqPort (h : HState) : (s.setHState h).reqPort = s.reqPort := rfl
@[simp] theorem setHState_responses (h : HState) : (s.setHState h).responses = s.responses := rfl
@[simp] theorem setHState_hostScript (h : HState) : (s.setHState h).hostScript = s.hostScript := rfl
@[simp] theorem setHState_wireSlot (h : HState) : (s.setHState h).wireSlot = s.wireSlot := rfl
@[simp] theorem setHState_oracle (h : HState) : (s.setHState h).oracle = s.oracle := rfl

/-! ### setCfg -/

@[simp] theorem setCfg_par (c : Cfg) : (s.setCfg c).par = s.par := rfl
@[simp] theorem setCfg_hstate (c : Cfg) : (s.setCfg c).hstate = s.hstate := rfl
@[simp] theorem setCfg_cfg (c : Cfg) : (s.setCfg c).cfg = c := rfl
@[simp] theorem setCfg_acq (c : Cfg) : (s.setCfg c).acq = s.acq := rfl
@[simp] theorem setCfg_contMode (c : Cfg) : (s.setCfg c).contMode = s.contMode := rfl
@[simp] theorem setCfg_scan (c : Cfg) : (s.setCfg c).scan = s.scan := rfl
@[simp] theorem setCfg_dacA (c : Cfg) : (s.setCfg c).dacA = s.dacA := rfl
@[simp] theorem setCfg_dacB (c : Cfg) : (s.setCfg c).dacB = s.dacB := rfl
@[simp] theorem setCfg_mon (c : Cfg) : (s.setCfg c).mon = s.mon := rfl
@[simp] theorem setCfg_lines (c : Cfg) : (s.setCfg c).lines = s.lines := rfl
@[simp] theorem setCfg_warnLog (c : Cfg) : (s.setCfg c).warnLog = s.warnLog := rfl
@[simp] theorem setCfg_trace (c : Cfg) : (s.setCfg c).trace = s.trace := rfl
@[simp] theorem setCfg_reqPort (c : Cfg) : (s.setCfg c).reqPort = s.reqPort := rfl
@[simp] theorem setCfg_responses (c : Cfg) : (s.setCfg c).responses = s.responses := rfl
@[simp] theorem setCfg_hostScript (c : Cfg) : (s.setCfg c).hostScript = s.hostScript := rfl
@[simp] theorem setCfg_wireSlot (c : Cfg) : (s.setCfg c).wireSlot = s.wireSlot := rfl
@[simp] theorem setCfg_oracle (c : Cfg) : (s.setCfg c).oracle = s.oracle := rfl

/-! ### setAcq -/

@[simp] theorem setAcq_par (a : Acq) : (s.setAcq a).par = s.par := rfl
@[simp] theorem setAcq_hstate (a : Acq) : (s.setAcq a).hstate = s.hstate := rfl
@[simp] theorem setAcq_cfg (a : Acq) : (s.setAcq a).cfg = s.cfg := rfl
@[simp] theorem setAcq_acq (a : Acq) : (s.setAcq a).acq = a := rfl
@[simp] theorem setAcq_contMode (a : Acq) : (s.setAcq a).contMode = s.contMode := rfl
@[simp] theorem setAcq_scan (a : Acq) : (s.setAcq a).scan = s.scan := rfl
@[simp] theorem setAcq_dacA (a : Acq) : (s.setAcq a).dacA = s.dacA := rfl
@[simp] theorem setAcq_dacB (a : Acq) : (s.setAcq a).dacB = s.dacB := rfl
@[simp] theorem setAcq_mon (a : Acq) : (s.setAcq a).mon = s.mon := rfl
@[simp] theorem setAcq_lines (a : Acq) : (s.setAcq a).lines = s.lines := rfl
@[simp] theorem setAcq_warnLog (a : Acq) : (s.setAcq a).warnLog = s.warnLog := rfl
@[simp] theorem setAcq_trace (a : Acq) : (s.setAcq a).trace = s.trace := rfl
@[simp] theorem setAcq_reqPort (a : Acq) : (s.setAcq a).reqPort = s.reqPort := rfl
@[simp] theorem setAcq_responses (a : Acq) : (s.setAcq a).responses = s.responses := rfl
@[simp] theorem setAcq_hostScript (a : Acq) : (s.setAcq a).hostScript = s.hostScript := rfl
@[simp] theorem setAcq_wireSlot (a : Acq) : (s.setAcq a).wireSlot = s.wireSlot := rfl
@[simp] theorem setAcq_oracle (a : Acq) : (s.setAcq a).oracle = s.oracle := rfl

/-! ### setContMode -/

@[simp] theorem setContMode_par (b : Bool) : (s.setContMode b).par = s.par := rfl
@[simp] theorem setContMode_hstate (b : Bool) : (s.setContMode b).hstate = s.hstate := rfl
@[simp] theorem setContMode_cfg (b : Bool) : (s.setContMode b).cfg = s.cfg := rfl
@[simp] theorem setContMode_acq (b : Bool) : (s.setContMode b).acq = s.acq := rfl
@[simp] theorem setContMode_contMode (b : Bool) : (s.setContMode b).contMode = b := rfl
@[simp] theorem setContMode_scan (b : Bool) : (s.setContMode b).scan = s.scan := rfl
@[simp] theorem setContMode_dacA (b : Bool) : (s.setContMode b).dacA = s.dacA := rfl
@[simp] theorem setContMode_dacB (b : Bool) : (s.setContMode b).dacB = s.dacB := rfl
@[simp] theorem setContMode_mon (b : Bool) : (s.setContMode b).mon = s.mon := rfl
@[simp] theorem setContMode_lines (b : Bool) : (s.setContMode b).lines = s.lines := rfl
@[simp] theorem setContMode_warnLog (b : Bool) : (s.setContMode b).warnLog = s.warnLog := rfl
@[simp] theorem setContMode_trace (b : Bool) : (s.setContMode b).trace = s.trace := rfl
@[simp] theorem setContMode_reqPort (b : Bool) : (s.setContMode b).reqPort = s.reqPort := rfl
@[simp] theorem setContMode_responses (b : Bool) : (s.setContMode b).responses = s.responses := rfl
@[simp] theorem setContMode_hostScript (b : Bool) : (s.setContMode b).hostScript = s.hostScript := rfl
@[simp] theorem setContMode_wireSlot (b : Bool) : (s.setContMode b).wireSlot = s.wireSlot := rfl
@[simp] theorem setContMode_oracle (b : Bool) : (s.setContMode b).oracle = s.oracle := rfl

/-! ### setScan -/

@[simp] theorem setScan_par (sc : Scan) : (s.setScan sc).par = s.par := rfl
@[simp] theorem setScan_hstate (sc : Scan) : (s.setScan sc).hstate = s.hstate := rfl
@[simp] theorem setScan_cfg (sc : Scan) : (s.setScan sc).cfg = s.cfg := rfl
@[simp] theorem setScan_acq (sc : Scan) : (s.setScan sc).acq = s.acq := rfl
@[simp] theorem setScan_contMode (sc : Scan) : (s.setScan sc).contMode = s.contMode := rfl
@[simp] theorem setScan_scan (sc : Scan) : (s.setScan sc).scan = sc := rfl
@[simp] theorem setScan_dacA (sc : Scan) : (s.setScan sc).dacA = s.dacA := rfl
@[simp] theorem setScan_dacB (sc : Scan) : (s.setScan sc).dacB = s.dacB := rfl
@[simp] theorem setScan_mon (sc : Scan) : (s.setScan sc).mon = s.mon := rfl
@[simp] theorem setScan_lines (sc : Scan) : (s.setScan sc).lines = s.lines := rfl
@[simp] theorem setScan_warnLog (sc : Scan) : (s.setScan sc).warnLog = s.warnLog := rfl
@[simp] theorem setScan_trace (sc : Scan) : (s.setScan sc).trace = s.trace := rfl
@[simp] theorem setScan_reqPort (sc : Scan) : (s.setScan sc).reqPort = s.reqPort := rfl
@[simp] theorem setScan_responses (sc : Scan) : (s.setScan sc).responses = s.responses := rfl
@[simp] theorem setScan_hostScript (sc : Scan) : (s.setScan sc).hostScript = s.hostScript := rfl
@[simp] theorem setScan_wireSlot (sc : Scan) : (s.setScan sc).wireSlot = s.wireSlot := rfl
@[simp] theorem setScan_oracle (sc : Scan) : (s.setScan sc).oracle = s.oracle := rfl

/-! ### setMon -/

@[simp] theorem setMon_par (m : Mon) : (s.setMon m).par = s.par := rfl
@[simp] theorem setMon_hstate (m : Mon) : (s.setMon m).hstate = s.hstate := rfl
@[simp] theorem setMon_cfg (m : Mon) : (s.setMon m).cfg = s.cfg := rfl
@[simp] theorem setMon_acq (m : Mon) : (s.setMon m).acq = s.acq := rfl
@[simp] theorem setMon_contMode (m : Mon) : (s.setMon m).contMode = s.contMode := rfl
@[simp] theorem setMon_scan (m : Mon) : (s.setMon m).scan = s.scan := rfl
@[simp] theorem setMon_dacA (m : Mon) : (s.setMon m).dacA = s.dacA := rfl
@[simp] theorem setMon_dacB (m : Mon) : (s.setMon m).dacB = s.dacB := rfl
@[simp] theorem setMon_mon (m : Mon) : (s.setMon m).mon = m := rfl
@[simp] theorem setMon_lines (m : Mon) : (s.setMon m).lines = s.lines := rfl
@[simp] theorem setMon_warnLog (m : Mon) : (s.setMon m).warnLog = s.warnLog := rfl
@[simp] theorem setMon_trace (m : Mon) : (s.setMon m).trace = s.trace := rfl
@[simp] theorem setMon_reqPort (m : Mon) : (s.setMon m).reqPort = s.reqPort := rfl
@[simp] theorem setMon_responses (m : Mon) : (s.setMon m).responses = s.responses := rfl
@[simp] theorem setMon_hostScript (m : Mon) : (s.setMon m).hostScript = s.hostScript := rfl
@[simp] theorem setMon_wireSlot (m : Mon) : (s.setMon m).wireSlot = s.wireSlot := rfl
@[simp] theorem setMon_oracle (m : Mon) : (s.setMon m).oracle = s.oracle := rfl

/-! ### setLines -/

@[simp] theorem setLines_par (ls : Lines) : (s.setLines ls).par = s.par := rfl
@[simp] theorem setLines_hstate (ls : Lines) : (s.setLines ls).hstate = s.hstate := rfl
@[simp] theorem setLines_cfg (ls : Lines) : (s.setLines ls).cfg = s.cfg := rfl
@[simp] theorem setLines_acq (ls : Lines) : (s.setLines ls).acq = s.acq := rfl
@[simp] theorem setLines_contMode (ls : Lines) : (s.setLines ls).contMode = s.contMode := rfl
@[simp] theorem setLines_scan (ls : Lines) : (s.setLines ls).scan = s.scan := rfl
@[simp] theorem setLines_dacA (ls : Lines) : (s.setLines ls).dacA = s.dacA := rfl
@[simp] theorem setLines_dacB (ls : Lines) : (s.setLines ls).dacB = s.dacB := rfl
@[simp] theorem setLines_mon (ls : Lines) : (s.setLines ls).mon = s.mon := rfl
@[simp] theorem setLines_lines (ls : Lines) : (s.setLines ls).lines = ls := rfl
@[simp] theorem setLines_warnLog (ls : Lines) : (s.setLines ls).warnLog = s.warnLog := rfl
@[simp] theorem setLines_trace (ls : Lines) : (s.setLines ls).trace = s.trace := rfl
@[simp] theorem setLines_reqPort (ls : Lines) : (s.setLines ls).reqPort = s.reqPort := rfl
@[simp] theorem setLines_responses (ls : Lines) : (s.setLines ls).responses = s.responses := rfl
@[simp] theorem setLines_hostScript (ls : Lines) : (s.setLines ls).hostScript = s.hostScript := rfl
@[simp] theorem setLines_wireSlot (ls : Lines) : (s.setLines ls).wireSlot = s.wireSlot := rfl
@[simp] theorem setLines_oracle (ls : Lines) : (s.setLines ls).oracle = s.oracle := rfl

/-! ### setOracle -/

@[simp] theorem setOracle_par (o : Oracle) : (s.setOracle o).par = s.par := rfl
@[simp] theorem setOracle_hstate (o : Oracle) : (s.setOracle o).hstate = s.hstate := rfl
@[simp] theorem setOracle_cfg (o : Oracle) : (s.setOracle o).cfg = s.cfg := rfl
@[simp] theorem setOracle_acq (o : Oracle) : (s.setOracle o).acq = s.acq := rfl
@[simp] theorem setOracle_contMode (o : Oracle) : (s.setOracle o).contMode = s.contMode := rfl
@[simp] theorem setOracle_scan (o : Oracle) : (s.setOracle o).scan = s.scan := rfl
@[simp] theorem setOracle_dacA (o : Oracle) : (s.setOracle o).dacA = s.dacA := rfl
@[simp] theorem setOracle_dacB (o : Oracle) : (s.setOracle o).dacB = s.dacB := rfl
@[simp] theorem setOracle_mon (o : Oracle) : (s.setOracle o).mon = s.mon := rfl
@[simp] theorem setOracle_lines (o : Oracle) : (s.setOracle o).lines = s.lines := rfl
@[simp] theorem setOracle_warnLog (o : Oracle) : (s.setOracle o).warnLog = s.warnLog := rfl
@[simp] theorem setOracle_trace (o : Oracle) : (s.setOracle o).trace = s.trace := rfl
@[simp] theorem setOracle_reqPort (o : Oracle) : (s.setOracle o).reqPort = s.reqPort := rfl
@[simp] theorem setOracle_responses (o : Oracle) : (s.setOracle o).responses = s.responses := rfl
@[simp] theorem setOracle_hostScript (o : Oracle) : (s.setOracle o).hostScript = s.hostScript := rfl
@[simp] theorem setOracle_wireSlot (o : Oracle) : (s.setOracle o).wireSlot = s.wireSlot := rfl
@[simp] theorem setOracle_oracle (o : Oracle) : (s.setOracle o).oracle = o := rfl

/-! ### setPhase -/

@[simp] theorem setPhase_par (ph : Phase) : (s.setPhase ph).par = s.par := rfl
@[simp] theorem setPhase_hstate (ph : Phase) : (s.setPhase ph).hstate = s.hstate := rfl
@[simp] theorem setPhase_cfg (ph : Phase) : (s.setPhase ph).cfg = s.cfg := rfl
@[simp] theorem setPhase_acq (ph : Phase) : (s.setPhase ph).acq = { s.acq with phase := ph } := rfl
@[simp] theorem setPhase_contMode (ph : Phase) : (s.setPhase ph).contMode = s.contMode := rfl
@[simp] theorem setPhase_scan (ph : Phase) : (s.setPhase ph).scan = s.scan := rfl
@[simp] theorem setPhase_dacA (ph : Phase) : (s.setPhase ph).dacA = s.dacA := rfl
@[simp] theorem setPhase_dacB (ph : Phase) : (s.setPhase ph).dacB = s.dacB := rfl
@[simp] theorem setPhase_mon (ph : Phase) : (s.setPhase ph).mon = s.mon := rfl
@[simp] theorem setPhase_lines (ph : Phase) : (s.setPhase ph).lines = s.lines := rfl
@[simp] theorem setPhase_warnLog (ph : Phase) : (s.setPhase ph).warnLog = s.warnLog := rfl
@[simp] theorem setPhase_trace (ph : Phase) : (s.setPhase ph).trace = s.trace := rfl
@[simp] theorem setPhase_reqPort (ph : Phase) : (s.setPhase ph).reqPort = s.reqPort := rfl
@[simp] theorem setPhase_responses (ph : Phase) : (s.setPhase ph).responses = s.responses := rfl
@[simp] theorem setPhase_hostScript (ph : Phase) : (s.setPhase ph).hostScript = s.hostScript := rfl
@[simp] theorem setPhase_wireSlot (ph : Phase) : (s.setPhase ph).wireSlot = s.wireSlot := rfl
@[simp] theorem setPhase_oracle (ph : Phase) : (s.setPhase ph).oracle = s.oracle := rfl

/-! ### loadDefaults -/

@[simp] theorem loadDefaults_par : (s.loadDefaults).par = s.par := rfl
@[simp] theorem loadDefaults_hstate : (s.loadDefaults).hstate = s.hstate := rfl
@[simp] theorem loadDefaults_cfg :
    (s.loadDefaults).cfg = { s.cfg with gain := 0#3, drate := 0#4, bufen := 0#1 } := rfl
@[simp] theorem loadDefaults_acq : (s.loadDefaults).acq = s.acq := rfl
@[simp] theorem loadDefaults_contMode : (s.loadDefaults).contMode = s.contMode := rfl
@[simp] theorem loadDefaults_scan : (s.loadDefaults).scan = s.scan := rfl
@[simp] theorem loadDefaults_dacA : (s.loadDefaults).dacA = s.dacA := rfl
@[simp] theorem loadDefaults_dacB : (s.loadDefaults).dacB = s.dacB := rfl
@[simp] theorem loadDefaults_mon : (s.loadDefaults).mon = s.mon := rfl
@[simp] theorem loadDefaults_lines : (s.loadDefaults).lines = s.lines := rfl
@[simp] theorem loadDefaults_warnLog : (s.loadDefaults).warnLog = s.warnLog := rfl
@[simp] theorem loadDefaults_trace : (s.loadDefaults).trace = s.trace := rfl
@[simp] theorem loadDefaults_reqPort : (s.loadDefaults).reqPort = s.reqPort := rfl
@[simp] theorem loadDefaults_responses : (s.loadDefaults).responses = s.responses := rfl
@[simp] theorem loadDefaults_hostScript : (s.loadDefaults).hostScript = s.hostScript := rfl
@[simp] theorem loadDefaults_wireSlot : (s.loadDefaults).wireSlot = s.wireSlot := rfl
@[simp] theorem loadDefaults_oracle : (s.loadDefaults).oracle = s.oracle := rfl

/-! ### configured -/

@[simp] theorem configured_par (g : GainCode) (d : RateIndex) (b : BitVec 1) :
    (s.configured g d b).par = s.par := rfl
@[simp] theorem configured_hstate (g : GainCode) (d : RateIndex) (b : BitVec 1) :
    (s.configured g d b).hstate = s.hstate := rfl
@[simp] theorem configured_cfg (g : GainCode) (d : RateIndex) (b : BitVec 1) :
    (s.configured g d b).cfg = { s.cfg with gain := g, drate := d, bufen := b } := rfl
@[simp] theorem configured_acq (g : GainCode) (d : RateIndex) (b : BitVec 1) :
    (s.configured g d b).acq = s.acq := rfl
@[simp] theorem configured_contMode (g : GainCode) (d : RateIndex) (b : BitVec 1) :
    (s.configured g d b).contMode = s.contMode := rfl
@[simp] theorem configured_scan (g : GainCode) (d : RateIndex) (b : BitVec 1) :
    (s.configured g d b).scan = s.scan := rfl
@[simp] theorem configured_dacA (g : GainCode) (d : RateIndex) (b : BitVec 1) :
    (s.configured g d b).dacA = s.dacA := rfl
@[simp] theorem configured_dacB (g : GainCode) (d : RateIndex) (b : BitVec 1) :
    (s.configured g d b).dacB = s.dacB := rfl
@[simp] theorem configured_mon (g : GainCode) (d : RateIndex) (b : BitVec 1) :
    (s.configured g d b).mon = s.mon := rfl
@[simp] theorem configured_lines (g : GainCode) (d : RateIndex) (b : BitVec 1) :
    (s.configured g d b).lines = s.lines := rfl
@[simp] theorem configured_warnLog (g : GainCode) (d : RateIndex) (b : BitVec 1) :
    (s.configured g d b).warnLog = s.warnLog := rfl
@[simp] theorem configured_trace (g : GainCode) (d : RateIndex) (b : BitVec 1) :
    (s.configured g d b).trace = s.trace := rfl
@[simp] theorem configured_reqPort (g : GainCode) (d : RateIndex) (b : BitVec 1) :
    (s.configured g d b).reqPort = s.reqPort := rfl
@[simp] theorem configured_responses (g : GainCode) (d : RateIndex) (b : BitVec 1) :
    (s.configured g d b).responses = s.responses := rfl
@[simp] theorem configured_hostScript (g : GainCode) (d : RateIndex) (b : BitVec 1) :
    (s.configured g d b).hostScript = s.hostScript := rfl
@[simp] theorem configured_wireSlot (g : GainCode) (d : RateIndex) (b : BitVec 1) :
    (s.configured g d b).wireSlot = s.wireSlot := rfl
@[simp] theorem configured_oracle (g : GainCode) (d : RateIndex) (b : BitVec 1) :
    (s.configured g d b).oracle = s.oracle := rfl

/-! ### countPoll -/

@[simp] theorem countPoll_par : (s.countPoll).par = s.par := rfl
@[simp] theorem countPoll_hstate : (s.countPoll).hstate = s.hstate := rfl
@[simp] theorem countPoll_cfg : (s.countPoll).cfg = s.cfg := rfl
@[simp] theorem countPoll_acq : (s.countPoll).acq = { s.acq with pollCnt := s.acq.pollCnt + 1 } := rfl
@[simp] theorem countPoll_contMode : (s.countPoll).contMode = s.contMode := rfl
@[simp] theorem countPoll_scan : (s.countPoll).scan = s.scan := rfl
@[simp] theorem countPoll_dacA : (s.countPoll).dacA = s.dacA := rfl
@[simp] theorem countPoll_dacB : (s.countPoll).dacB = s.dacB := rfl
@[simp] theorem countPoll_mon : (s.countPoll).mon = s.mon := rfl
@[simp] theorem countPoll_lines : (s.countPoll).lines = s.lines := rfl
@[simp] theorem countPoll_warnLog : (s.countPoll).warnLog = s.warnLog := rfl
@[simp] theorem countPoll_trace : (s.countPoll).trace = s.trace := rfl
@[simp] theorem countPoll_reqPort : (s.countPoll).reqPort = s.reqPort := rfl
@[simp] theorem countPoll_responses : (s.countPoll).responses = s.responses := rfl
@[simp] theorem countPoll_hostScript : (s.countPoll).hostScript = s.hostScript := rfl
@[simp] theorem countPoll_wireSlot : (s.countPoll).wireSlot = s.wireSlot := rfl
@[simp] theorem countPoll_oracle : (s.countPoll).oracle = s.oracle := rfl

/-! ### setScanIdx -/

@[simp] theorem setScanIdx_par (i : Nat) : (s.setScanIdx i).par = s.par := rfl
@[simp] theorem setScanIdx_hstate (i : Nat) : (s.setScanIdx i).hstate = s.hstate := rfl
@[simp] theorem setScanIdx_cfg (i : Nat) : (s.setScanIdx i).cfg = s.cfg := rfl
@[simp] theorem setScanIdx_acq (i : Nat) : (s.setScanIdx i).acq = s.acq := rfl
@[simp] theorem setScanIdx_contMode (i : Nat) : (s.setScanIdx i).contMode = s.contMode := rfl
@[simp] theorem setScanIdx_scan (i : Nat) : (s.setScanIdx i).scan = { s.scan with idx := i } := rfl
@[simp] theorem setScanIdx_dacA (i : Nat) : (s.setScanIdx i).dacA = s.dacA := rfl
@[simp] theorem setScanIdx_dacB (i : Nat) : (s.setScanIdx i).dacB = s.dacB := rfl
@[simp] theorem setScanIdx_mon (i : Nat) : (s.setScanIdx i).mon = s.mon := rfl
@[simp] theorem setScanIdx_lines (i : Nat) : (s.setScanIdx i).lines = s.lines := rfl
@[simp] theorem setScanIdx_warnLog (i : Nat) : (s.setScanIdx i).warnLog = s.warnLog := rfl
@[simp] theorem setScanIdx_trace (i : Nat) : (s.setScanIdx i).trace = s.trace := rfl
@[simp] theorem setScanIdx_reqPort (i : Nat) : (s.setScanIdx i).reqPort = s.reqPort := rfl
@[simp] theorem setScanIdx_responses (i : Nat) : (s.setScanIdx i).responses = s.responses := rfl
@[simp] theorem setScanIdx_hostScript (i : Nat) : (s.setScanIdx i).hostScript = s.hostScript := rfl
@[simp] theorem setScanIdx_wireSlot (i : Nat) : (s.setScanIdx i).wireSlot = s.wireSlot := rfl
@[simp] theorem setScanIdx_oracle (i : Nat) : (s.setScanIdx i).oracle = s.oracle := rfl

/-! ### setResult -/

@[simp] theorem setResult_par (i : Nat) (v : Sample) : (s.setResult i v).par = s.par := rfl
@[simp] theorem setResult_hstate (i : Nat) (v : Sample) : (s.setResult i v).hstate = s.hstate := rfl
@[simp] theorem setResult_cfg (i : Nat) (v : Sample) : (s.setResult i v).cfg = s.cfg := rfl
@[simp] theorem setResult_acq (i : Nat) (v : Sample) : (s.setResult i v).acq = s.acq := rfl
@[simp] theorem setResult_contMode (i : Nat) (v : Sample) : (s.setResult i v).contMode = s.contMode := rfl
@[simp] theorem setResult_scan (i : Nat) (v : Sample) :
    (s.setResult i v).scan = { s.scan with result := s.scan.result.setIfInBounds i (some v) } := rfl
@[simp] theorem setResult_dacA (i : Nat) (v : Sample) : (s.setResult i v).dacA = s.dacA := rfl
@[simp] theorem setResult_dacB (i : Nat) (v : Sample) : (s.setResult i v).dacB = s.dacB := rfl
@[simp] theorem setResult_mon (i : Nat) (v : Sample) : (s.setResult i v).mon = s.mon := rfl
@[simp] theorem setResult_lines (i : Nat) (v : Sample) : (s.setResult i v).lines = s.lines := rfl
@[simp] theorem setResult_warnLog (i : Nat) (v : Sample) : (s.setResult i v).warnLog = s.warnLog := rfl
@[simp] theorem setResult_trace (i : Nat) (v : Sample) : (s.setResult i v).trace = s.trace := rfl
@[simp] theorem setResult_reqPort (i : Nat) (v : Sample) : (s.setResult i v).reqPort = s.reqPort := rfl
@[simp] theorem setResult_responses (i : Nat) (v : Sample) : (s.setResult i v).responses = s.responses := rfl
@[simp] theorem setResult_hostScript (i : Nat) (v : Sample) :
    (s.setResult i v).hostScript = s.hostScript := rfl
@[simp] theorem setResult_wireSlot (i : Nat) (v : Sample) : (s.setResult i v).wireSlot = s.wireSlot := rfl
@[simp] theorem setResult_oracle (i : Nat) (v : Sample) : (s.setResult i v).oracle = s.oracle := rfl

/-! ### consume -/

@[simp] theorem consume_par : (s.consume).par = s.par := rfl
@[simp] theorem consume_hstate : (s.consume).hstate = s.hstate := rfl
@[simp] theorem consume_cfg : (s.consume).cfg = s.cfg := rfl
@[simp] theorem consume_acq : (s.consume).acq = s.acq := rfl
@[simp] theorem consume_contMode : (s.consume).contMode = s.contMode := rfl
@[simp] theorem consume_scan : (s.consume).scan = s.scan := rfl
@[simp] theorem consume_dacA : (s.consume).dacA = s.dacA := rfl
@[simp] theorem consume_dacB : (s.consume).dacB = s.dacB := rfl
@[simp] theorem consume_mon : (s.consume).mon = s.mon := rfl
@[simp] theorem consume_lines : (s.consume).lines = s.lines := rfl
@[simp] theorem consume_warnLog : (s.consume).warnLog = s.warnLog := rfl
@[simp] theorem consume_trace : (s.consume).trace = s.trace := rfl
@[simp] theorem consume_reqPort : (s.consume).reqPort = none := rfl
@[simp] theorem consume_responses : (s.consume).responses = s.responses := rfl
@[simp] theorem consume_hostScript : (s.consume).hostScript = s.hostScript := rfl
@[simp] theorem consume_wireSlot : (s.consume).wireSlot = s.wireSlot := rfl
@[simp] theorem consume_oracle : (s.consume).oracle = s.oracle := rfl

/-! ### clearWire -/

@[simp] theorem clearWire_par : (s.clearWire).par = s.par := rfl
@[simp] theorem clearWire_hstate : (s.clearWire).hstate = s.hstate := rfl
@[simp] theorem clearWire_cfg : (s.clearWire).cfg = s.cfg := rfl
@[simp] theorem clearWire_acq : (s.clearWire).acq = s.acq := rfl
@[simp] theorem clearWire_contMode : (s.clearWire).contMode = s.contMode := rfl
@[simp] theorem clearWire_scan : (s.clearWire).scan = s.scan := rfl
@[simp] theorem clearWire_dacA : (s.clearWire).dacA = s.dacA := rfl
@[simp] theorem clearWire_dacB : (s.clearWire).dacB = s.dacB := rfl
@[simp] theorem clearWire_mon : (s.clearWire).mon = s.mon := rfl
@[simp] theorem clearWire_lines : (s.clearWire).lines = s.lines := rfl
@[simp] theorem clearWire_warnLog : (s.clearWire).warnLog = s.warnLog := rfl
@[simp] theorem clearWire_trace : (s.clearWire).trace = s.trace := rfl
@[simp] theorem clearWire_reqPort : (s.clearWire).reqPort = s.reqPort := rfl
@[simp] theorem clearWire_responses : (s.clearWire).responses = s.responses := rfl
@[simp] theorem clearWire_hostScript : (s.clearWire).hostScript = s.hostScript := rfl
@[simp] theorem clearWire_wireSlot : (s.clearWire).wireSlot = none := rfl
@[simp] theorem clearWire_oracle : (s.clearWire).oracle = s.oracle := rfl

/-! ### setDac -/

@[simp] theorem setDac_par (ch : DacChannel) (c : DacCode) : (s.setDac ch c).par = s.par := by cases ch <;> rfl
@[simp] theorem setDac_hstate (ch : DacChannel) (c : DacCode) : (s.setDac ch c).hstate = s.hstate := by cases ch <;> rfl
@[simp] theorem setDac_cfg (ch : DacChannel) (c : DacCode) : (s.setDac ch c).cfg = s.cfg := by cases ch <;> rfl
@[simp] theorem setDac_acq (ch : DacChannel) (c : DacCode) : (s.setDac ch c).acq = s.acq := by cases ch <;> rfl
@[simp] theorem setDac_contMode (ch : DacChannel) (c : DacCode) : (s.setDac ch c).contMode = s.contMode := by cases ch <;> rfl
@[simp] theorem setDac_scan (ch : DacChannel) (c : DacCode) : (s.setDac ch c).scan = s.scan := by cases ch <;> rfl
@[simp] theorem setDac_a_dacA (c : DacCode) : (s.setDac .a c).dacA = some c := rfl
@[simp] theorem setDac_b_dacA (c : DacCode) : (s.setDac .b c).dacA = s.dacA := rfl
@[simp] theorem setDac_a_dacB (c : DacCode) : (s.setDac .a c).dacB = s.dacB := rfl
@[simp] theorem setDac_b_dacB (c : DacCode) : (s.setDac .b c).dacB = some c := rfl
@[simp] theorem setDac_mon (ch : DacChannel) (c : DacCode) : (s.setDac ch c).mon = s.mon := by cases ch <;> rfl
@[simp] theorem setDac_lines (ch : DacChannel) (c : DacCode) : (s.setDac ch c).lines = s.lines := by cases ch <;> rfl
@[simp] theorem setDac_warnLog (ch : DacChannel) (c : DacCode) : (s.setDac ch c).warnLog = s.warnLog := by cases ch <;> rfl
@[simp] theorem setDac_trace (ch : DacChannel) (c : DacCode) : (s.setDac ch c).trace = s.trace := by cases ch <;> rfl
@[simp] theorem setDac_reqPort (ch : DacChannel) (c : DacCode) : (s.setDac ch c).reqPort = s.reqPort := by cases ch <;> rfl
@[simp] theorem setDac_responses (ch : DacChannel) (c : DacCode) : (s.setDac ch c).responses = s.responses := by cases ch <;> rfl
@[simp] theorem setDac_hostScript (ch : DacChannel) (c : DacCode) : (s.setDac ch c).hostScript = s.hostScript := by cases ch <;> rfl
@[simp] theorem setDac_wireSlot (ch : DacChannel) (c : DacCode) : (s.setDac ch c).wireSlot = s.wireSlot := by cases ch <;> rfl
@[simp] theorem setDac_oracle (ch : DacChannel) (c : DacCode) : (s.setDac ch c).oracle = s.oracle := by cases ch <;> rfl

end Sys2Proof.Machine
end

