-- ==== Sys2Proof/Laws/Ops.lean ====
section
/-! SUPPORT. For each shared operation one lemma that says everything it can do. -/

namespace Sys2Proof.Machine

/-! ### Lines -/

@[simp] theorem Lines.drive_held (ls : Lines) (cs : ChipSelect) (l : Level) :
    (ls.drive cs l).held = ls.held := by
  unfold Lines.drive; split <;> cases cs <;> rfl

@[simp] theorem Lines.drive_rst (ls : Lines) (cs : ChipSelect) (l : Level) :
    (ls.drive cs l).rst = ls.rst := by
  unfold Lines.drive; split <;> cases cs <;> rfl

@[simp] theorem Lines.drive_adc_csDac (ls : Lines) (l : Level) : (ls.drive .adc l).csDac = ls.csDac := by
  unfold Lines.drive; split <;> rfl

@[simp] theorem Lines.drive_dac_csAdc (ls : Lines) (l : Level) : (ls.drive .dac l).csAdc = ls.csAdc := by
  unfold Lines.drive; split <;> rfl

/-- An ADC transaction's lines, as a record update. -/
theorem Lines.drive_adc_eq (ls : Lines) (l : Level) :
    ls.drive .adc l = { ls with csAdc := (ls.drive .adc l).csAdc } := by
  unfold Lines.drive; split <;> rfl

/-- A DAC frame's lines, as a record update. -/
theorem Lines.drive_dac_eq (ls : Lines) (l : Level) :
    ls.drive .dac l = { ls with csDac := (ls.drive .dac l).csDac } := by
  unfold Lines.drive; split <;> rfl

@[simp] theorem Lines.drive_drive (ls : Lines) (cs : ChipSelect) (l l' : Level) :
    (ls.drive cs l).drive cs l' = ls.drive cs l' := by
  unfold Lines.drive; cases cs <;> cases h : ls.held <;> simp [h]

/-- A transaction leaves de-asserted or released lines as they are. -/
theorem Lines.drive_high_of_held {ls : Lines} {cs : ChipSelect}
    (h : ls.held = true → ls.csAdc = .driven .high ∧ ls.csDac = .driven .high) :
    ls.drive cs .high = ls := by
  unfold Lines.drive
  split
  · next hh => obtain ⟨ha, hd⟩ := h hh; cases ls; cases cs <;> simp_all
  · rfl

/-! ### Draws -/

/-- Drawing bytes touches nothing else of the oracle. -/
theorem Oracle.drawBytes_eq (n : Nat) (o : Oracle) :
    (Oracle.drawBytes n o).2 =
      { o with bytes := o.bytes.drop n, bytesDrawn := o.bytesDrawn + n } := by
  induction n with
  | zero => rfl
  | succ n ih => simp [Oracle.drawBytes, ih, Oracle.dropByte, Nat.add_assoc]

@[simp] theorem Oracle.drawBytes_one (o : Oracle) : (Oracle.drawBytes 1 o).1[0] = o.nextByte := rfl

theorem Oracle.lastTick_le_nextTick (o : Oracle) (floor : Nat) : o.lastTick ≤ o.nextTick floor := by
  unfold Oracle.nextTick; omega

theorem Oracle.floor_le_nextTick (o : Oracle) (floor : Nat) : floor ≤ o.nextTick floor := by
  unfold Oracle.nextTick; omega

@[simp] theorem Oracle.dropTick_lastTick (o : Oracle) (floor : Nat) :
    (o.dropTick floor).lastTick = o.nextTick floor := rfl

/-- The three bytes of an RDATA, in arrival order. -/
theorem Oracle.drawBytes_three (o : Oracle) :
    (Oracle.drawBytes 3 o).1.toList =
      [(Oracle.drawBytes 3 o).1[0], (Oracle.drawBytes 3 o).1[1], (Oracle.drawBytes 3 o).1[2]] := by
  have h : ∀ v : Vector Byte 3, v.toList = [v[0], v[1], v[2]] := by
    intro v
    apply List.ext_getElem
    · simp
    · intro i h₁ h₂
      simp at h₁
      obtain _ | _ | _ | i := i <;> simp at h₁ ⊢
      omega
  exact h _

theorem Oracle.drawBytes_one_toList (o : Oracle) :
    (Oracle.drawBytes 1 o).1.toList = [o.nextByte] := rfl

/-! ### Transactions -/

/-- R14: what an ADC transaction leaves changed. -/
theorem adcTx_state (out : List Byte) (gap : Bool) (n : Nat) (s : State) :
    (adcTx out gap n s).2 =
      { s with
        lines := s.lines.drive .adc .high
        oracle := { s.oracle with
          bytes := s.oracle.bytes.drop n, bytesDrawn := s.oracle.bytesDrawn + n }
        trace := s.trace ++ [.tx .adc out gap (Oracle.drawBytes n s.oracle).1.toList] } := by
  simp [adcTx, State.setLines, State.setOracle, State.emit, Oracle.drawBytes_eq]

@[simp] theorem adcTx_bytes (out : List Byte) (gap : Bool) (n : Nat) (s : State) :
    (adcTx out gap n s).1 = (Oracle.drawBytes n s.oracle).1 := rfl

/-- R96. -/
theorem sendCmd_state (c : Byte) (s : State) :
    sendCmd c s = { s with
      lines := s.lines.drive .adc .high
      trace := s.trace ++ [cmdEvent c] } := by
  simp [sendCmd, adcTx_state, cmdEvent, Oracle.drawBytes]

/-- R102. -/
theorem wReg1_state (a : RegAddr) (v : Byte) (s : State) :
    wReg1 a v s = { s with
      lines := s.lines.drive .adc .high
      trace := s.trace ++ [wregEvent s.par a v] } := by
  simp [wReg1, adcTx_state, wregEvent, Oracle.drawBytes]

/-- R101. -/
theorem rReg1_state (a : RegAddr) (s : State) :
    (rReg1 a s).2 = { s with
      lines := s.lines.drive .adc .high
      oracle := s.oracle.dropByte
      trace := s.trace ++ [.tx .adc (rregBytes s.par a) true [s.oracle.nextByte]] } := by
  simp [rReg1, adcTx_state, Oracle.drawBytes_one_toList, Oracle.dropByte]

@[simp] theorem rReg1_value (a : RegAddr) (s : State) : (rReg1 a s).1 = s.oracle.nextByte := rfl

/-- R98: the sample is the one its event's bytes spell. -/
theorem rData_state (s : State) :
    ∃ b0 b1 b2, (rData s).1 = rawSample b0 b1 b2 ∧
      (rData s).2 = { s with
        lines := s.lines.drive .adc .high
        oracle := { s.oracle with
          bytes := s.oracle.bytes.drop 3, bytesDrawn := s.oracle.bytesDrawn + 3 }
        trace := s.trace ++ [rdataEvent s.par b0 b1 b2] } := by
  refine ⟨_, _, _, rfl, ?_⟩
  simp [rData, adcTx_state, rdataEvent, Oracle.drawBytes_three]

/-- R98, with the three bytes the outside answers next. -/
theorem rData_exact (s : State) :
    (rData s).1 = rawSample s.oracle.nextByte s.oracle.dropByte.nextByte
      s.oracle.dropByte.dropByte.nextByte ∧
    (rData s).2 = { s with
      lines := s.lines.drive .adc .high
      oracle := s.oracle.dropByte.dropByte.dropByte
      trace := s.trace ++ [rdataEvent s.par s.oracle.nextByte s.oracle.dropByte.nextByte
        s.oracle.dropByte.dropByte.nextByte] } := by
  refine ⟨rfl, ?_⟩
  simp only [rData, adcTx, State.setLines, State.setOracle, State.emit, Lines.drive_drive]
  rfl

/-- R15, R155. -/
theorem dacFrame_state (ch : DacChannel) (code : DacCode) (s : State) :
    dacFrame ch code s = { s with
      lines := s.lines.drive .dac .high
      trace := s.trace ++ [dacEvent s.par ch code] } := by
  simp [dacFrame, dacTx, State.setLines, State.emit, dacEvent]

/-- R17. -/
theorem nowAtLeast_state (floor : Nat) (s : State) :
    (nowAtLeast floor s).2 = { s with oracle := s.oracle.dropTick floor } := rfl

/-- R150, on held lines. -/
theorem resetPulse_state {s : State} (h : s.lines.held = true) :
    resetPulse s = { s with
      lines := { s.lines with rst := .driven .high }
      trace := s.trace ++ resetPulseEvents s.par } := by
  simp [resetPulse, setRst, delay, State.setLines, State.emit, h, resetPulseEvents]

/-! ### The bounded wait -/

theorem Oracle.WaitDraws.refl (o : Oracle) : o.WaitDraws o := by simp [Oracle.WaitDraws]

theorem Oracle.WaitDraws.trans {a b c : Oracle} (h : a.WaitDraws b) (h' : b.WaitDraws c) :
    a.WaitDraws c := by
  simp only [Oracle.WaitDraws] at *
  obtain ⟨h1, h2, h3, h4, h5⟩ := h
  obtain ⟨g1, g2, g3, g4, g5⟩ := h'
  exact ⟨g1.trans h1, g2.trans h2, g3.trans h3, g4.trans h4, by omega⟩

theorem Oracle.waitDraws_dropLevel (o : Oracle) : o.WaitDraws o.dropLevel := by
  simp [Oracle.WaitDraws, Oracle.dropLevel]

theorem Oracle.waitDraws_dropTick (o : Oracle) (floor : Nat) : o.WaitDraws (o.dropTick floor) := by
  have := o.lastTick_le_nextTick floor
  simpa [Oracle.WaitDraws, Oracle.dropTick] using this

/-- What a wait may leave changed: POLL_CNT, the two logs and the oracle. -/
def WaitEnds (want : Level) (site : Site) (bound : Option Nat) (s t : State) : Prop :=
  ∃ k evs ws o, t = { s with
      acq := { s.acq with pollCnt := s.acq.pollCnt + k }
      trace := s.trace ++ evs
      warnLog := s.warnLog ++ ws
      oracle := o } ∧
    s.oracle.WaitDraws o ∧
    ((evs = List.replicate k (.poll want.other) ++ [.poll want] ∧ ws = [] ∧ ∀ n ∈ bound, k < n) ∨
     (evs = List.replicate k (.poll want.other) ∧ ws = [.drdyTimeout site want] ∧ ∀ n ∈ bound, k = n))

theorem Level.eq_other {l want : Level} (h : l ≠ want) : l = want.other := by
  cases l <;> cases want <;> simp_all [Level.other]

/-- One more poll of the other level in front of a wait. -/
theorem WaitEnds.cons {want : Level} {site : Site} {bound : Option Nat} {s t : State} {o : Oracle}
    (hd : s.oracle.WaitDraws o)
    (h : WaitEnds want site bound
      { s with
        acq := { s.acq with pollCnt := s.acq.pollCnt + 1 }
        trace := s.trace ++ [.poll want.other]
        oracle := o } t) :
    WaitEnds want site (bound.map (· + 1)) s t := by
  obtain ⟨k, evs, ws, o', rfl, hd', hs⟩ := h
  refine ⟨k + 1, .poll want.other :: evs, ws, o', ?_, hd.trans hd', ?_⟩
  · simp [Nat.add_comm, Nat.add_left_comm]
  · rcases hs with ⟨rfl, rfl, hb⟩ | ⟨rfl, rfl, hb⟩
    · left; cases bound <;> simp_all [List.replicate_succ]
    · right; cases bound <;> simp_all [List.replicate_succ]

theorem pollLoop_ends (want : Level) (site : Site) (left : Nat) (s : State) :
    WaitEnds want site (some left) s (pollLoop want site left s).2 := by
  induction left generalizing s with
  | zero =>
    exact ⟨0, [], [.drdyTimeout site want], s.oracle, by simp [pollLoop, timeOut, State.warn],
      .refl _, by simp⟩
  | succ left ih =>
    unfold pollLoop
    split
    · next h =>
      refine ⟨0, [.poll want], [], s.oracle.dropLevel, ?_, s.oracle.waitDraws_dropLevel, by simp⟩
      simp only [pollDrdy] at h ⊢
      simp [State.setOracle, State.emit, h]
    · next h =>
      apply WaitEnds.cons (bound := some left) s.oracle.waitDraws_dropLevel
      have hl := Level.eq_other h
      simp only [pollDrdy] at hl
      have := ih (pollDrdy s).2.countPoll
      simpa [pollDrdy, State.setOracle, State.emit, State.countPoll, State.setAcq, hl] using this

theorem WaitEnds.tick {want : Level} {site : Site} {s t : State} {o : Oracle}
    (hd : s.oracle.WaitDraws o) (h : WaitEnds want site none { s with oracle := o } t) :
    WaitEnds want site none s t := by
  obtain ⟨k, evs, ws, o', rfl, hd', hs⟩ := h
  exact ⟨k, evs, ws, o', rfl, hd.trans hd', hs⟩

theorem deadlineLoop_ends (want : Level) (site : Site) (t0 left : Nat) (s : State) :
    WaitEnds want site none s (deadlineLoop want site t0 left s).2 := by
  induction left generalizing s with
  | zero =>
    exact ⟨0, [], [.drdyTimeout site want], s.oracle.dropTick (deadlineTick s.par t0),
      by simp [deadlineLoop, timeOut, State.warn, nowAtLeast_state],
      s.oracle.waitDraws_dropTick _, by simp⟩
  | succ left ih =>
    unfold deadlineLoop
    refine .tick (s.oracle.waitDraws_dropTick 0) ?_
    split
    · exact ⟨0, [], [.drdyTimeout site want], _,
        by simp [timeOut, State.warn, now, nowAtLeast_state], .refl _, by simp⟩
    · split
      · next h =>
        refine ⟨0, [.poll want], [], _, ?_, Oracle.waitDraws_dropLevel _, by simp⟩
        simp only [pollDrdy, now, nowAtLeast_state] at h ⊢
        simp [State.setOracle, State.emit, h]
      · next h =>
        refine WaitEnds.cons (bound := none) (Oracle.waitDraws_dropLevel _) ?_
        have hl := Level.eq_other h
        simp only [pollDrdy, now, nowAtLeast_state] at hl
        have := ih (pollDrdy (now s).2).2.countPoll
        simpa [pollDrdy, State.setOracle, State.emit, State.countPoll, State.setAcq, now,
          nowAtLeast_state, hl] using this

/-- R117: what a wait can do, in either mode. -/
theorem waitFor_spec (want : Level) (site : Site) (s : State) :
    ∃ k evs ws o, (waitFor want site s).2 = { s with
        acq := { s.acq with pollCnt := k }
        trace := s.trace ++ evs
        warnLog := s.warnLog ++ ws
        oracle := o } ∧
      s.oracle.WaitDraws o ∧ WaitShape s.par want site k evs ws := by
  unfold waitFor
  split
  · next hm =>
    obtain ⟨k, evs, ws, o, h, hd, hs⟩ := pollLoop_ends want site s.par.pollLimit
      (s.setAcq { s.acq with pollCnt := 0 })
    exact ⟨k, evs, ws, o, by rw [h]; simp [State.setAcq], hd, by simpa [WaitShape, hm] using hs⟩
  · next hm =>
    obtain ⟨k, evs, ws, o, h, hd, hs⟩ := deadlineLoop_ends want site
      (now (s.setAcq { s.acq with pollCnt := 0 })).1 s.par.fairBound
      (now (s.setAcq { s.acq with pollCnt := 0 })).2
    refine ⟨k, evs, ws, o, ?_, (Oracle.waitDraws_dropTick s.oracle 0).trans hd, ?_⟩
    · rw [h]; simp [State.setAcq, now, nowAtLeast_state]
    · simpa [WaitShape, hm] using hs

theorem waitReady_spec (site : Site) (s : State) :
    ∃ k evs ws o, waitReady site s = { s with
        acq := { s.acq with pollCnt := k }
        trace := s.trace ++ evs
        warnLog := s.warnLog ++ ws
        oracle := o } ∧
      s.oracle.WaitDraws o ∧ WaitShape s.par .low site k evs ws :=
  waitFor_spec .low site s

/-- R34, R117: POLL_CNT stays within POLL_LIMIT. -/
theorem WaitShape.pollBound {p : Params} {want : Level} {site : Site} {k : Nat} {evs : List Event}
    {ws : List Warning} (h : WaitShape p want site k evs ws) (hm : p.waitMode = .polls) :
    k ≤ p.pollLimit := by
  rcases h with ⟨_, _, h⟩ | ⟨_, _, h⟩ <;> have := h hm <;> omega

/-! ### Identification -/

/-- R151: from the open transport to the STATUS byte. -/
theorem identify_spec (s : State) : ∃ k evs ws o, (identify s).1 = s.oracle.nextByte ∧
    (identify s).2 = { s with
      acq := { s.acq with pollCnt := k }
      lines := ⟨true, .driven .high, .driven .high, .driven .high⟩
      trace := s.trace ++ resetPulseEvents s.par ++ evs ++
        [.tx .adc (rregBytes s.par s.par.regStatus) true [s.oracle.nextByte]]
      warnLog := s.warnLog ++ ws
      oracle := o.dropByte } ∧
    s.oracle.WaitDraws o ∧ WaitShape s.par .low .init k evs ws := by
  obtain ⟨k, evs, ws, o, hw, hd, hs⟩ := waitReady_spec .init (resetPulse (holdLines s))
  have hr := resetPulse_state (s := holdLines s) rfl
  rw [hr] at hd hs
  have hb : o.nextByte = s.oracle.nextByte := by
    obtain ⟨-, -, a, b, -⟩ := hd
    simp only [Oracle.nextByte, a, b]
    rfl
  refine ⟨k, evs, ws, o, by simp only [identify, rReg1_value, hw, hb], ?_, hd, hs⟩
  simp only [identify, rReg1_state, hw, hb]
  rw [hr]
  simp [holdLines, State.setLines, Lines.drive]

/-! ### Admission -/

theorem whenReady_of_ready {s : State} (h : s.hstate = .ready) (body : State → State) :
    whenReady s body = body s := by simp [whenReady, h]

theorem whenReady_of_not_ready {s : State} (h : s.hstate ≠ .ready) (body : State → State) :
    whenReady s body = s.refuse .notReady := by simp [whenReady, h]

theorem whenLegal_true (s : State) (body : State → State) : whenLegal true s body = body s := rfl

theorem whenLegal_false (s : State) (body : State → State) : whenLegal false s body = s.refuse .badArg :=
  rfl

theorem whenNotCont_of_false {s : State} (h : s.contMode = false) (body : State → State) :
    whenNotCont s body = body s := by simp [whenNotCont, h]

theorem whenNotCont_of_true {s : State} (h : s.contMode = true) (body : State → State) :
    whenNotCont s body = s.refuse .contMode := by simp [whenNotCont, h]

end Sys2Proof.Machine
end

