-- ==== Sys2Proof/Laws/Conversion.lean ====
section
/-! SUPPORT. What settling, an acquisition and a scan can do (spec/41_conversion.md, spec/42_scanner.md). -/

namespace Sys2Proof.Machine

/-- What a piece of an acquisition leaves changed: the acquisition's registers as given, the logs by what
is appended, the ADC chip select as after a transaction or as before, and the oracle, whose clock does not
fall. -/
def Appends (s t : State) (acq : Acq) (evs : List Event) (ws : List Warning) : Prop :=
  ∃ o ls, t = { s with
      acq := acq, lines := ls, trace := s.trace ++ evs, warnLog := s.warnLog ++ ws, oracle := o } ∧
    (ls = s.lines ∨ ls = s.lines.drive .adc .high) ∧
    s.oracle.lastTick ≤ o.lastTick ∧ o.opens = s.oracle.opens ∧ o.opensDrawn = s.oracle.opensDrawn

theorem Appends.trans {s t u : State} {a b : Acq} {e₁ e₂ : List Event} {w₁ w₂ : List Warning}
    (h : Appends s t a e₁ w₁) (h' : Appends t u b e₂ w₂) : Appends s u b (e₁ ++ e₂) (w₁ ++ w₂) := by
  obtain ⟨o, ls, rfl, hl, ho, hp, hpd⟩ := h
  obtain ⟨o', ls', rfl, hl', ho', hp', hpd'⟩ := h'
  refine ⟨o', ls', by simp, ?_, by simp at ho'; omega, by simpa [hp] using hp', by simpa [hpd] using hpd'⟩
  rcases hl with rfl | rfl <;> rcases hl' with rfl | rfl <;> simp

theorem Appends.par {s t : State} {a : Acq} {e : List Event} {w : List Warning}
    (h : Appends s t a e w) : t.par = s.par := by obtain ⟨o, ls, rfl, _⟩ := h; rfl

theorem Appends.acq {s t : State} {a : Acq} {e : List Event} {w : List Warning}
    (h : Appends s t a e w) : t.acq = a := by obtain ⟨o, ls, rfl, _⟩ := h; rfl

theorem Appends.cfg {s t : State} {a : Acq} {e : List Event} {w : List Warning}
    (h : Appends s t a e w) : t.cfg = s.cfg := by obtain ⟨o, ls, rfl, _⟩ := h; rfl

/-- Registers of the acquisition written, nothing appended. -/
theorem appends_setAcq (s : State) (a : Acq) : Appends s (s.setAcq a) a [] [] :=
  ⟨s.oracle, s.lines, by simp [State.setAcq], .inl rfl, le_rfl, rfl, rfl⟩

theorem Appends.setAcq {s t : State} {a : Acq} {e : List Event} {w : List Warning}
    (h : Appends s t a e w) (b : Acq) : Appends s (t.setAcq b) b e w := by
  simpa using h.trans (appends_setAcq t b)

theorem appends_sendCmd (c : Byte) (s : State) : Appends s (sendCmd c s) s.acq [cmdEvent c] [] :=
  ⟨s.oracle, _, by rw [sendCmd_state]; simp, .inr rfl, le_rfl, rfl, rfl⟩

theorem appends_wReg1 (a : RegAddr) (v : Byte) (s : State) :
    Appends s (wReg1 a v s) s.acq [wregEvent s.par a v] [] :=
  ⟨s.oracle, _, by rw [wReg1_state]; simp, .inr rfl, le_rfl, rfl, rfl⟩

theorem appends_delay (d : Rat) (s : State) : Appends s (delay d s) s.acq [.delay d] [] :=
  ⟨s.oracle, s.lines, by simp [delay, State.emit], .inl rfl, le_rfl, rfl, rfl⟩

theorem appends_rData (s : State) : ∃ b0 b1 b2, (rData s).1 = rawSample b0 b1 b2 ∧
    Appends s (rData s).2 s.acq [rdataEvent s.par b0 b1 b2] [] := by
  obtain ⟨b0, b1, b2, hv, hs⟩ := rData_state s
  exact ⟨b0, b1, b2, hv, (rData s).2.oracle, _, by rw [hs]; simp, .inr rfl, by rw [hs], by rw [hs],
    by rw [hs]⟩

theorem appends_waitFor (want : Level) (site : Site) (s : State) : ∃ k evs ws,
    Appends s (waitFor want site s).2 { s.acq with pollCnt := k } evs ws ∧
      WaitShape s.par want site k evs ws := by
  obtain ⟨k, evs, ws, o, h, hd, hs⟩ := waitFor_spec want site s
  exact ⟨k, evs, ws, ⟨o, s.lines, by rw [h], .inl rfl, hd.2.2.2.2, hd.1, hd.2.1⟩, hs⟩

/-- The registers of an acquisition a settling may leave, from those before its loop: SETTLE_N, the
channel and the last sample stay, POLL_CNT is within the bound of POLLS. -/
def Acq.SettledFrom (p : Params) (n : Nat) (a b : Acq) : Prop :=
  ∃ k, (p.waitMode = .polls → k ≤ p.pollLimit) ∧
    b = { a with phase := .ready, settleK := a.settleK + BitVec.ofNat 8 n, pollCnt := k }

theorem observeReady_spec (site : Site) (s : State) : ∃ k evs ws,
    Appends s (observeReady site s)
      { s.acq with pollCnt := k, phase := .ready, settleK := s.acq.settleK + 1#8 } evs ws ∧
      WaitShape s.par .low site k evs ws := by
  obtain ⟨k, evs, ws, h, hs⟩ := appends_waitFor .low site s
  refine ⟨k, evs, ws, ?_, hs⟩
  have := h.setAcq { (waitFor .low site s).2.acq with
    phase := .ready, settleK := (waitFor .low site s).2.acq.settleK + 1#8 }
  rw [h.acq] at this
  simpa [observeReady, waitReady, h.acq] using this

theorem discardCycle_spec (site : Site) (s : State) : ∃ k evs ws,
    Appends s (discardCycle site s) { s.acq with pollCnt := k, phase := .converting } evs ws ∧
      DiscardShape s.par site evs ws := by
  unfold discardCycle DiscardShape
  split
  · obtain ⟨b0, b1, b2, -, h⟩ := appends_rData s
    refine ⟨s.acq.pollCnt, _, _, ?_, b0, b1, b2, rfl, rfl⟩
    have := h.setAcq { (rData s).2.acq with phase := .converting }
    simpa [State.setPhase, h.acq] using this
  · obtain ⟨k, evs, ws, h, hs⟩ := appends_waitFor .high site s
    refine ⟨k, evs, ws, ?_, k, hs⟩
    have := h.setAcq { (waitFor .high site s).2.acq with phase := .converting }
    simpa [waitNotReady, State.setPhase, h.acq] using this

/-- R120, R121: what the settling loop can do. -/
theorem settleLoop_spec (site : Site) (n : Nat) (s : State) : ∃ a evs ws,
    Appends s (settleLoop site (n + 1) s) a evs ws ∧ s.acq.SettledFrom s.par (n + 1) a ∧
      SettleShape s.par site (n + 1) evs ws := by
  induction n generalizing s with
  | zero =>
    obtain ⟨k, evs, ws, h, hs⟩ := observeReady_spec site s
    exact ⟨_, evs, ws, by simpa [settleLoop] using h, ⟨k, hs.pollBound, rfl⟩, k, hs⟩
  | succ n ih =>
    obtain ⟨k, e₁, w₁, h₁, hs₁⟩ := observeReady_spec site s
    obtain ⟨k', e₂, w₂, h₂, hs₂⟩ := discardCycle_spec site (observeReady site s)
    obtain ⟨a, e₃, w₃, h₃, ⟨k₃, hk₃, ha⟩, hs₃⟩ := ih (discardCycle site (observeReady site s))
    have h := (h₁.trans h₂).trans h₃
    rw [h₁.par] at hs₂
    rw [h₂.par, h₁.par] at hs₃ hk₃
    refine ⟨a, _, _, ?_, ⟨k₃, hk₃, ?_⟩, k, e₁, w₁, e₂, w₂, e₃, w₃, hs₁, hs₂, hs₃, rfl, rfl⟩
    · simpa [settleLoop] using h
    · rw [ha, h₂.acq, h₁.acq]
      simp only [Acq.mk.injEq, true_and, and_true]
      rw [BitVec.add_assoc, show (1#8 : BitVec 8) = BitVec.ofNat 8 1 from rfl, ← BitVec.ofNat_add,
        Nat.add_comm 1 (n + 1)]

/-- R120: what Settle can do. -/
theorem settle_spec {n : Byte} (hn : n ≠ 0#8) (site : Site) (s : State) : ∃ k evs ws,
    Appends s (settle n site s)
      { s.acq with phase := .ready, settleN := n, settleK := n, pollCnt := k } evs ws ∧
      (s.par.waitMode = .polls → k ≤ s.par.pollLimit) ∧ SettleShape s.par site n.toNat evs ws := by
  obtain ⟨m, hm⟩ : ∃ m, n.toNat = m + 1 := by
    refine Nat.exists_eq_add_one.2 (Nat.pos_of_ne_zero fun h => hn ?_)
    exact BitVec.eq_of_toNat_eq (by simpa using h)
  obtain ⟨a, evs, ws, h, ⟨k, hk, ha⟩, hs⟩ :=
    settleLoop_spec site m (s.setAcq { s.acq with settleN := n, settleK := 0#8 })
  refine ⟨k, evs, ws, ?_, by simpa using hk, by rw [hm]; simpa using hs⟩
  have h' := (appends_setAcq s { s.acq with settleN := n, settleK := 0#8 }).trans h
  have hn' : BitVec.ofNat 8 (m + 1) = n := by rw [← hm]; simp
  rw [ha] at h'
  simpa [settle, hm, hn'] using h'

/-- R114. -/
theorem selectChannel_spec (mux : Byte) (s : State) :
    Appends s (selectChannel mux s) { s.acq with phase := .channelSelected }
      [wregEvent s.par s.par.regMux mux] [] := by
  have h := appends_wReg1 s.par.regMux mux s
  simpa [selectChannel, State.setPhase, h.acq] using
    h.setAcq { s.acq with phase := .channelSelected }

/-- R115. -/
theorem synchronize_spec (s : State) :
    Appends s (synchronize s) { s.acq with phase := .synchronized }
      [cmdEvent s.par.cmdSync, .delay s.par.t11Min] [] := by
  have h := (appends_sendCmd s.par.cmdSync s).trans (appends_delay s.par.t11Min _)
  have hp := (appends_sendCmd s.par.cmdSync s).par
  have ha := (appends_sendCmd s.par.cmdSync s).acq
  have := h.setAcq { s.acq with phase := .synchronized }
  simpa [synchronize, syncCmd, State.setPhase, delay, ha] using this

/-- R116. -/
theorem wake_spec (s : State) :
    Appends s (wake s) { s.acq with phase := .converting } [cmdEvent s.par.cmdWakeup] [] := by
  have h := appends_sendCmd s.par.cmdWakeup s
  simpa [wake, wakeupCmd, State.setPhase, h.acq] using h.setAcq { s.acq with phase := .converting }

/-- R122. -/
theorem readPhase_spec (s : State) : ∃ b0 b1 b2, (readPhase s).1 = rawSample b0 b1 b2 ∧
    Appends s (readPhase s).2
      { s.acq with phase := .idle, lastSample := some (rawSample b0 b1 b2) }
      [rdataEvent s.par b0 b1 b2] [] := by
  obtain ⟨b0, b1, b2, hv, h⟩ := appends_rData s
  refine ⟨b0, b1, b2, hv, ?_⟩
  have := (h.setAcq { s.acq with phase := .read, lastSample := some (rawSample b0 b1 b2) }).setAcq
    { s.acq with phase := .idle, lastSample := some (rawSample b0 b1 b2) }
  simpa [readPhase, State.setPhase, h.acq, hv] using this

/-- R113: what an acquisition of a valid index can do. -/
theorem acquireValid_spec {n : Byte} (hn : n ≠ 0#8) (op : AcqOp) (slot : Nat) (ch : Int) (s : State) :
    ∃ k e ws b0 b1 b2, (acquireValid op slot ch n s).1 = rawSample b0 b1 b2 ∧
      Appends s (acquireValid op slot ch n s).2
        { phase := .idle, settleN := n, settleK := n, pollCnt := k, ch := some ch
          mux := some (muxCode s.par s.cfg.scanMode ch), lastSample := some (rawSample b0 b1 b2) }
        (selectEvents s.par s.cfg.scanMode ch ++ e ++ [rdataEvent s.par b0 b1 b2]) ws ∧
      (s.par.waitMode = .polls → k ≤ s.par.pollLimit) ∧
      SettleShape s.par (.acq op slot) n.toNat e ws := by
  let mux := muxCode s.par s.cfg.scanMode ch
  let s₀ := s.setAcq { s.acq with ch := some ch, mux := some mux }
  have h₀ : Appends s s₀ _ _ _ := appends_setAcq s _
  have h₁ := h₀.trans (selectChannel_spec mux s₀)
  have h₂ := h₁.trans (synchronize_spec (selectChannel mux s₀))
  have h₃ := h₂.trans (wake_spec (synchronize (selectChannel mux s₀)))
  obtain ⟨k, e, ws, h₄, hk, hs⟩ :=
    settle_spec hn (.acq op slot) (wake (synchronize (selectChannel mux s₀)))
  have h₅ := h₃.trans h₄
  obtain ⟨b0, b1, b2, hv, h₆⟩ :=
    readPhase_spec (settle n (.acq op slot) (wake (synchronize (selectChannel mux s₀))))
  have h₇ := h₅.trans h₆
  have p₁ := h₁.par
  have p₂ := h₂.par
  have p₃ := h₃.par
  have p₅ := h₅.par
  refine ⟨k, e, ws, b0, b1, b2, hv, ?_, by simpa [p₃] using hk, by simpa [p₃] using hs⟩
  rw [h₅.acq, h₃.acq, h₂.acq, h₁.acq, h₀.acq, p₁, p₂, p₅] at h₇
  simpa [selectEvents, acquireValid, s₀, mux] using h₇

/-- R111, R113: what an acquisition can do. -/
theorem acquire_spec {n : Byte} (hn : n ≠ 0#8) (op : AcqOp) (slot : Nat) (ch : Int) (s : State) :
    ∃ a evs ws, Appends s (acquire op slot ch n s).2 a evs ws ∧
      AcqShape s.par s.cfg.scanMode op slot ch n.toNat evs ws (acquire op slot ch n s).1 ∧
      if validCh s.cfg.scanMode ch then ∃ k, (s.par.waitMode = .polls → k ≤ s.par.pollLimit) ∧
        a = { phase := .idle, settleN := n, settleK := n, pollCnt := k, ch := some ch
              mux := some (muxCode s.par s.cfg.scanMode ch)
              lastSample := some (acquire op slot ch n s).1 }
      else a = s.acq := by
  unfold acquire AcqShape
  split
  · obtain ⟨k, e, ws, b0, b1, b2, hv, h, hk, hs⟩ := acquireValid_spec hn op slot ch s
    exact ⟨_, _, ws, h, ⟨e, b0, b1, b2, hs, rfl, hv⟩, k, hk, by rw [hv]⟩
  · exact ⟨s.acq, [], [.invalidChannel op slot ch],
      ⟨s.oracle, s.lines, by simp [State.warn], .inl rfl, le_rfl, rfl, rfl⟩, ⟨rfl, rfl, rfl⟩, rfl⟩

end Sys2Proof.Machine
end

