-- ==== Sys2Proof/Laws/Scan.lean ====
section
/-! SUPPORT. What a scan can do (spec/42_scanner.md), and the range of its samples. -/

namespace Sys2Proof.Machine

/-- R90: the container holds the code's own value. -/
theorem rawSample_toInt (b0 b1 b2 : Byte) :
    (rawSample b0 b1 b2).toInt = (b0 ++ b1 ++ b2 : BitVec 24).toInt :=
  BitVec.toInt_signExtend_of_le (by omega)

theorem rawSample_range (b0 b1 b2 : Byte) : InSampleRange (rawSample b0 b1 b2) := by
  unfold InSampleRange
  rw [rawSample_toInt]
  have h₁ := BitVec.le_toInt (b0 ++ b1 ++ b2 : BitVec 24)
  have h₂ := BitVec.toInt_lt (x := (b0 ++ b1 ++ b2 : BitVec 24))
  norm_num at h₁ h₂
  omega

theorem zero_range : InSampleRange 0#32 := by simp [InSampleRange]

/-- An acquisition's sample is a sign-extended code. -/
theorem AcqShape.range {p : Params} {m : ScanMode} {op : AcqOp} {slot n : Nat} {ch : Int}
    {evs : List Event} {ws : List Warning} {v : Sample} (h : AcqShape p m op slot ch n evs ws v) :
    InSampleRange v := by
  unfold AcqShape at h
  split at h
  · obtain ⟨e, b0, b1, b2, -, -, rfl⟩ := h; exact rawSample_range _ _ _
  · obtain ⟨-, -, rfl⟩ := h; exact zero_range

/-- The registers acquisitions may leave: those before, or those of a finished acquisition of a valid
channel. -/
def Acq.After (p : Params) (m : ScanMode) (n : Byte) (a b : Acq) : Prop :=
  b = a ∨ ∃ k ch v, validCh m ch = true ∧ (p.waitMode = .polls → k ≤ p.pollLimit) ∧ InSampleRange v ∧
    b = { phase := .idle, settleN := n, settleK := n, pollCnt := k, ch := some ch
          mux := some (muxCode p m ch), lastSample := some v }

theorem Acq.After.trans {p : Params} {m : ScanMode} {n : Byte} {a b c : Acq}
    (h : Acq.After p m n a b) (h' : Acq.After p m n b c) : Acq.After p m n a c := by
  rcases h' with rfl | h'
  · exact h
  · exact .inr h'

/-- The registers `acquire_spec` gives, in one predicate. -/
theorem AcqShape.after {p : Params} {m : ScanMode} {n : Byte} {op : AcqOp} {slot : Nat} {ch : Int}
    {evs : List Event} {ws : List Warning} {v : Sample} {a b : Acq}
    (h : AcqShape p m op slot ch n.toNat evs ws v)
    (ha : if validCh m ch then ∃ k, (p.waitMode = .polls → k ≤ p.pollLimit) ∧
        b = { phase := .idle, settleN := n, settleK := n, pollCnt := k, ch := some ch
              mux := some (muxCode p m ch), lastSample := some v }
      else b = a) : Acq.After p m n a b := by
  split at ha
  · next hv => obtain ⟨k, hk, rfl⟩ := ha; exact .inr ⟨k, ch, _, hv, hk, h.range, rfl⟩
  · exact .inl ha

/-- `acquire_spec` with the registers it leaves in one predicate. -/
theorem acquire_after {n : Byte} (hn : n ≠ 0#8) (op : AcqOp) (slot : Nat) (ch : Int) (s : State) :
    ∃ a evs ws, Appends s (acquire op slot ch n s).2 a evs ws ∧
      AcqShape s.par s.cfg.scanMode op slot ch n.toNat evs ws (acquire op slot ch n s).1 ∧
      Acq.After s.par s.cfg.scanMode n s.acq a := by
  obtain ⟨a, evs, ws, h, hs, ha⟩ := acquire_spec hn op slot ch s
  exact ⟨a, evs, ws, h, hs, hs.after ha⟩

/-- R111, R113: the registers a scan's slots leave, from those before: the last valid entry's, or the same
if no entry is valid. -/
def Acq.AfterSlots (p : Params) (m : ScanMode) (n : Byte) (a : Acq) (l : List Int) (vs : List Sample)
    (b : Acq) : Prop :=
  ((∀ ch ∈ l, validCh m ch = false) → b = a) ∧
    ∀ (j : Nat) (ch : Int), l[j]? = some ch → validCh m ch = true →
      (∀ (i : Nat) (c : Int), j < i → l[i]? = some c → validCh m c = false) →
      ∃ k, b = ⟨.idle, n, n, k, some ch, some (muxCode p m ch), vs[j]?⟩

theorem Acq.AfterSlots.cons {p : Params} {m : ScanMode} {n : Byte} {a b c : Acq} {ch : Int} {v : Sample}
    {l : List Int} {vs : List Sample}
    (h : if validCh m ch then ∃ k, b = ⟨.idle, n, n, k, some ch, some (muxCode p m ch), some v⟩ else b = a)
    (h' : Acq.AfterSlots p m n b l vs c) : Acq.AfterSlots p m n a (ch :: l) (v :: vs) c := by
  constructor
  · intro hi
    rw [if_neg (by simp [hi ch List.mem_cons_self])] at h
    rw [h'.1 fun c hc => hi c (List.mem_cons_of_mem _ hc), h]
  · intro j d hj hv hlast
    cases j with
    | zero =>
      obtain rfl : ch = d := by simpa using hj
      rw [if_pos hv] at h
      rwa [h'.1 fun c hc => ?_]
      obtain ⟨i, hi⟩ := List.getElem?_of_mem hc
      exact hlast (i + 1) c (by omega) (by simpa using hi)
    | succ j =>
      simpa using h'.2 j d (by simpa using hj) hv fun i c hi hc => hlast (i + 1) c (by omega) (by simpa using hc)

/-- R37: the buffer after the slots from the i-th on have been written. -/
def ResultAfter (i : Nat) (vs : List Sample) (r r' : Vector (Option Sample) 8) : Prop :=
  ∀ j (h : j < 8), r'[j] = if i ≤ j ∧ j < i + vs.length then vs[j - i]? else r[j]

theorem ScanShape.length {p : Params} {m : ScanMode} {n i : Nat} {l : List Int} {evs : List Event}
    {ws : List Warning} {vs : List Sample} (h : ScanShape p m n i l evs ws vs) :
    vs.length = l.length := by
  induction l generalizing i evs ws vs with
  | nil => simp [h.2.2]
  | cons ch rest ih =>
    obtain ⟨e₁, w₁, v, e₂, w₂, vs', -, h, -, -, rfl⟩ := h
    simp [ih h]

theorem ScanShape.range {p : Params} {m : ScanMode} {n i : Nat} {l : List Int} {evs : List Event}
    {ws : List Warning} {vs : List Sample} (h : ScanShape p m n i l evs ws vs) :
    ∀ v ∈ vs, InSampleRange v := by
  induction l generalizing i evs ws vs with
  | nil => simp [h.2.2]
  | cons ch rest ih =>
    obtain ⟨e₁, w₁, v, e₂, w₂, vs', h₁, h, -, -, rfl⟩ := h
    intro u hu
    rcases List.mem_cons.1 hu with rfl | hu
    · exact h₁.range
    · exact ih h u hu

/-- R125: what one slot can do. -/
theorem scanSlot_spec {n : Byte} (hn : n ≠ 0#8) (i : Nat) (ch : Int) (s : State) :
    ∃ a evs ws v, Appends (s.setScan { s.scan with
        idx := i, result := s.scan.result.setIfInBounds i (some v) }) (scanSlot n i ch s) a evs ws ∧
      AcqShape s.par s.cfg.scanMode .scanChannels i ch n.toNat evs ws v ∧
      Acq.After s.par s.cfg.scanMode n s.acq a ∧
      if validCh s.cfg.scanMode ch then
        ∃ k, a = ⟨.idle, n, n, k, some ch, some (muxCode s.par s.cfg.scanMode ch), some v⟩
      else a = s.acq := by
  obtain ⟨a, evs, ws, ⟨o, ls, h, hls, ho⟩, hs, ha⟩ := acquire_spec hn .scanChannels i ch (s.setScanIdx i)
  refine ⟨a, evs, ws, _, ⟨o, ls, ?_, hls, ho⟩, hs, hs.after ha, ?_⟩
  rotate_left
  · change if validCh s.cfg.scanMode ch then _ else _ at ha
    split at ha
    · next hv => obtain ⟨k, -, rfl⟩ := ha; exact if_pos hv ▸ ⟨k, rfl⟩
    · next hv => exact if_neg hv ▸ ha
  unfold scanSlot
  simp only [h]
  simp [State.setScan, State.setResult]

/-- R125: what the slots from the i-th on can do. -/
theorem scanLoop_spec {n : Byte} (hn : n ≠ 0#8) (l : List Int) (i : Nat) (hi : i + l.length ≤ 8)
    (s : State) : ∃ a evs ws vs idx r, Appends (s.setScan { s.scan with idx := idx, result := r })
        (scanLoop n i l s) a evs ws ∧
      ScanShape s.par s.cfg.scanMode n.toNat i l evs ws vs ∧
      Acq.After s.par s.cfg.scanMode n s.acq a ∧ Acq.AfterSlots s.par s.cfg.scanMode n s.acq l vs a ∧
      ResultAfter i vs s.scan.result r := by
  induction l generalizing i s with
  | nil =>
    exact ⟨s.acq, [], [], [], s.scan.idx, s.scan.result,
      ⟨s.oracle, s.lines, by simp [scanLoop, State.setScan], .inl rfl, le_rfl, rfl, rfl⟩,
      ⟨rfl, rfl, rfl⟩, .inl rfl, ⟨fun _ => rfl, by simp⟩, by intro j h; simp⟩
  | cons ch rest ih =>
    obtain ⟨a, e₁, w₁, v, h₁, hs₁, ha, hv⟩ := scanSlot_spec hn i ch s
    obtain ⟨a', e₂, w₂, vs, idx, r, h₂, hs₂, ha', hv', hr⟩ :=
      ih (i + 1) (by simp at hi; omega) (scanSlot n i ch s)
    have hp : (scanSlot n i ch s).par = s.par := h₁.par
    have hc : (scanSlot n i ch s).cfg = s.cfg := h₁.cfg
    have hsc : (scanSlot n i ch s).scan = { s.scan with
        idx := i, result := s.scan.result.setIfInBounds i (some v) } := by
      obtain ⟨o, ls, h, -⟩ := h₁; rw [h]; rfl
    rw [hp, hc] at hs₂ ha' hv'
    rw [h₁.acq] at ha' hv'
    refine ⟨a', e₁ ++ e₂, w₁ ++ w₂, v :: vs, idx, r, ?_,
      ⟨e₁, w₁, v, e₂, w₂, vs, hs₁, hs₂, rfl, rfl, rfl⟩, ha.trans ha', .cons hv hv', ?_⟩
    · obtain ⟨o, ls, h, hls, ho⟩ := h₁
      obtain ⟨o', ls', h', hls', ho'⟩ := h₂
      rw [h] at h' hls' ho'
      refine ⟨o', ls', ?_, ?_, ?_⟩
      · simp only [scanLoop]; rw [h, h']; simp [State.setScan]
      · rcases hls with rfl | rfl <;> rcases hls' with rfl | rfl <;> simp [State.setScan]
      · simp [State.setScan] at ho ho' ⊢
        exact ⟨by omega, by rw [ho'.2.1, ho.2.1], by rw [ho'.2.2, ho.2.2]⟩
    · rw [hsc] at hr
      intro j hj
      rw [hr j hj]
      have hi' : i < 8 := by simp at hi; omega
      by_cases hji : j = i
      · subst hji; simp
      · by_cases hlt : i + 1 ≤ j ∧ j < i + 1 + vs.length
        · rw [if_pos hlt, if_pos ⟨by omega, by simp; omega⟩]
          obtain ⟨d, rfl⟩ : ∃ d, j = i + 1 + d := ⟨j - (i + 1), by omega⟩
          simp [show i + 1 + d - i = d + 1 by omega]
        · rw [if_neg hlt, if_neg (by simp; omega)]
          simp [Ne.symm hji]

/-- R37: reading entries that are all written gives their values. -/
theorem readResults_eq (s : State) (vs : List Sample) (n : Nat) (hn : n ≤ vs.length) (h8 : n ≤ 8)
    (h : ∀ j (hj : j < 8), j < n → s.scan.result[j] = vs[j]?) :
    readResults s n = some (vs.take n) := by
  induction n with
  | zero => simp [readResults]
  | succ n ih =>
    have hr := ih (by omega) (by omega) fun j hj hjn => h j hj (by omega)
    have hv := h n (by omega) (by omega)
    have hlt : n < vs.length := by omega
    rw [List.getElem?_eq_getElem hlt] at hv
    have hv' : s.scan.result[n]? = some (some vs[n]) := by
      rw [Vector.getElem?_eq_getElem (by omega), hv]
    simp only [readResults, hr, hv']
    rw [List.take_add_one, List.getElem?_eq_getElem hlt]
    rfl

/-- R137: what a refresh of the derived fields leaves changed. -/
theorem deriveNow_state (s : State) :
    deriveNow s = { s with
      mon := s.mon.derive s.par (s.oracle.nextTick 0)
      oracle := s.oracle.dropTick 0 } := rfl

/-- R136. -/
theorem recordScan_state (n : Nat) (s : State) :
    recordScan n s = { s with
      mon := (s.mon.count n).derive s.par (s.oracle.nextTick 0)
      oracle := s.oracle.dropTick 0 } := rfl

/-- R136: what a finished scan of n entries does to the monitor, at tick t. -/
def Mon.AfterScan (p : Params) (n t : Nat) (m m' : Mon) : Prop :=
  m' = if 0 < n ∧ m.active then (m.count n).derive p t else m

/-- R125: what a scan can do, from its start to its record in the monitor. -/
theorem scanRun_spec {n : Byte} (hn : n ≠ 0#8) {l : List Int} (hl : l.length ≤ 8) (s : State) :
    ∃ a evs ws vs r m ls o, scanRun l n s = { s with
        acq := a, scan := ⟨l, l.length, l.length, n, r⟩, mon := m, lines := ls
        trace := s.trace ++ evs, warnLog := s.warnLog ++ ws, oracle := o } ∧
      (ls = s.lines ∨ ls = s.lines.drive .adc .high) ∧ s.oracle.lastTick ≤ o.lastTick ∧
      ScanShape s.par s.cfg.scanMode n.toNat 0 l evs ws vs ∧
      Acq.After s.par s.cfg.scanMode n s.acq a ∧ Acq.AfterSlots s.par s.cfg.scanMode n s.acq l vs a ∧
      ResultAfter 0 vs (resultAtStart l s.scan.result) r ∧
      Mon.AfterScan s.par l.length o.lastTick s.mon m := by
  obtain ⟨a, evs, ws, vs, idx, r, ⟨o, ls, h, hls, ho, -⟩, hs, ha, hv, hr⟩ :=
    scanLoop_spec hn l 0 (by omega) (scanStart l n s)
  have e : (scanLoop n 0 l (scanStart l n s)).setScanIdx l.length = { s with
      acq := a, scan := ⟨l, l.length, l.length, n, r⟩, lines := ls
      trace := s.trace ++ evs, warnLog := s.warnLog ++ ws, oracle := o } := by
    rw [h]; simp [scanStart, State.setScan, State.setScanIdx]
  unfold scanRun
  simp only [e]
  by_cases hm : 0 < l.length ∧ s.mon.active
  · refine ⟨a, evs, ws, vs, r, _, ls, o.dropTick 0, by rw [if_pos hm, recordScan_state], hls, ?_, hs,
      ha, hv, hr, ?_⟩
    · simp only [Oracle.dropTick_lastTick]
      exact ho.trans (o.lastTick_le_nextTick 0)
    · simp only [Mon.AfterScan, if_pos hm]
      rfl
  · exact ⟨a, evs, ws, vs, r, _, ls, _, by rw [if_neg hm], hls, ho, hs, ha, hv, hr,
      by simp only [Mon.AfterScan, if_neg hm]⟩

/-- R37: the samples of the slots are what RESULT then holds. -/
theorem ResultAfter.read {vs : List Sample} {r : Vector (Option Sample) 8} {s : State}
    (h : ResultAfter 0 vs r s.scan.result) (h8 : vs.length ≤ 8) :
    readResults s vs.length = some vs := by
  rw [readResults_eq s vs vs.length le_rfl h8 fun j hj hjn => by simp [h j hj, hjn], List.take_length]

end Sys2Proof.Machine
end

