-- ==== Sys2Proof/Laws/Frames.lean ====
section
/-! SUPPORT. What the shared operations leave alone, field by field, so that no later proof opens one. -/

namespace Sys2Proof.Machine

variable (s : State)

/-! ### waitReady -/
@[simp] theorem waitReady_par (site : Site) : (waitReady site s).par = s.par := by
  obtain ⟨k, e, w, o, h, -⟩ := waitReady_spec site s; rw [h]
@[simp] theorem waitReady_hstate (site : Site) : (waitReady site s).hstate = s.hstate := by
  obtain ⟨k, e, w, o, h, -⟩ := waitReady_spec site s; rw [h]
@[simp] theorem waitReady_cfg (site : Site) : (waitReady site s).cfg = s.cfg := by
  obtain ⟨k, e, w, o, h, -⟩ := waitReady_spec site s; rw [h]
@[simp] theorem waitReady_contMode (site : Site) : (waitReady site s).contMode = s.contMode := by
  obtain ⟨k, e, w, o, h, -⟩ := waitReady_spec site s; rw [h]
@[simp] theorem waitReady_scan (site : Site) : (waitReady site s).scan = s.scan := by
  obtain ⟨k, e, w, o, h, -⟩ := waitReady_spec site s; rw [h]
@[simp] theorem waitReady_dacA (site : Site) : (waitReady site s).dacA = s.dacA := by
  obtain ⟨k, e, w, o, h, -⟩ := waitReady_spec site s; rw [h]
@[simp] theorem waitReady_dacB (site : Site) : (waitReady site s).dacB = s.dacB := by
  obtain ⟨k, e, w, o, h, -⟩ := waitReady_spec site s; rw [h]
@[simp] theorem waitReady_mon (site : Site) : (waitReady site s).mon = s.mon := by
  obtain ⟨k, e, w, o, h, -⟩ := waitReady_spec site s; rw [h]
@[simp] theorem waitReady_lines (site : Site) : (waitReady site s).lines = s.lines := by
  obtain ⟨k, e, w, o, h, -⟩ := waitReady_spec site s; rw [h]
@[simp] theorem waitReady_reqPort (site : Site) : (waitReady site s).reqPort = s.reqPort := by
  obtain ⟨k, e, w, o, h, -⟩ := waitReady_spec site s; rw [h]
@[simp] theorem waitReady_responses (site : Site) : (waitReady site s).responses = s.responses := by
  obtain ⟨k, e, w, o, h, -⟩ := waitReady_spec site s; rw [h]
@[simp] theorem waitReady_hostScript (site : Site) : (waitReady site s).hostScript = s.hostScript := by
  obtain ⟨k, e, w, o, h, -⟩ := waitReady_spec site s; rw [h]
@[simp] theorem waitReady_wireSlot (site : Site) : (waitReady site s).wireSlot = s.wireSlot := by
  obtain ⟨k, e, w, o, h, -⟩ := waitReady_spec site s; rw [h]

/-! ### sendCmd -/
@[simp] theorem sendCmd_par (c : Byte) : (sendCmd c s).par = s.par := by
  rw [sendCmd_state]
@[simp] theorem sendCmd_hstate (c : Byte) : (sendCmd c s).hstate = s.hstate := by
  rw [sendCmd_state]
@[simp] theorem sendCmd_cfg (c : Byte) : (sendCmd c s).cfg = s.cfg := by
  rw [sendCmd_state]
@[simp] theorem sendCmd_acq (c : Byte) : (sendCmd c s).acq = s.acq := by
  rw [sendCmd_state]
@[simp] theorem sendCmd_contMode (c : Byte) : (sendCmd c s).contMode = s.contMode := by
  rw [sendCmd_state]
@[simp] theorem sendCmd_scan (c : Byte) : (sendCmd c s).scan = s.scan := by
  rw [sendCmd_state]
@[simp] theorem sendCmd_dacA (c : Byte) : (sendCmd c s).dacA = s.dacA := by
  rw [sendCmd_state]
@[simp] theorem sendCmd_dacB (c : Byte) : (sendCmd c s).dacB = s.dacB := by
  rw [sendCmd_state]
@[simp] theorem sendCmd_mon (c : Byte) : (sendCmd c s).mon = s.mon := by
  rw [sendCmd_state]
@[simp] theorem sendCmd_warnLog (c : Byte) : (sendCmd c s).warnLog = s.warnLog := by
  rw [sendCmd_state]
@[simp] theorem sendCmd_reqPort (c : Byte) : (sendCmd c s).reqPort = s.reqPort := by
  rw [sendCmd_state]
@[simp] theorem sendCmd_responses (c : Byte) : (sendCmd c s).responses = s.responses := by
  rw [sendCmd_state]
@[simp] theorem sendCmd_hostScript (c : Byte) : (sendCmd c s).hostScript = s.hostScript := by
  rw [sendCmd_state]
@[simp] theorem sendCmd_wireSlot (c : Byte) : (sendCmd c s).wireSlot = s.wireSlot := by
  rw [sendCmd_state]
@[simp] theorem sendCmd_oracle (c : Byte) : (sendCmd c s).oracle = s.oracle := by
  rw [sendCmd_state]

/-! ### wReg1 -/
@[simp] theorem wReg1_par (a : RegAddr) (v : Byte) : (wReg1 a v s).par = s.par := by
  rw [wReg1_state]
@[simp] theorem wReg1_hstate (a : RegAddr) (v : Byte) : (wReg1 a v s).hstate = s.hstate := by
  rw [wReg1_state]
@[simp] theorem wReg1_cfg (a : RegAddr) (v : Byte) : (wReg1 a v s).cfg = s.cfg := by
  rw [wReg1_state]
@[simp] theorem wReg1_acq (a : RegAddr) (v : Byte) : (wReg1 a v s).acq = s.acq := by
  rw [wReg1_state]
@[simp] theorem wReg1_contMode (a : RegAddr) (v : Byte) : (wReg1 a v s).contMode = s.contMode := by
  rw [wReg1_state]
@[simp] theorem wReg1_scan (a : RegAddr) (v : Byte) : (wReg1 a v s).scan = s.scan := by
  rw [wReg1_state]
@[simp] theorem wReg1_dacA (a : RegAddr) (v : Byte) : (wReg1 a v s).dacA = s.dacA := by
  rw [wReg1_state]
@[simp] theorem wReg1_dacB (a : RegAddr) (v : Byte) : (wReg1 a v s).dacB = s.dacB := by
  rw [wReg1_state]
@[simp] theorem wReg1_mon (a : RegAddr) (v : Byte) : (wReg1 a v s).mon = s.mon := by
  rw [wReg1_state]
@[simp] theorem wReg1_warnLog (a : RegAddr) (v : Byte) : (wReg1 a v s).warnLog = s.warnLog := by
  rw [wReg1_state]
@[simp] theorem wReg1_reqPort (a : RegAddr) (v : Byte) : (wReg1 a v s).reqPort = s.reqPort := by
  rw [wReg1_state]
@[simp] theorem wReg1_responses (a : RegAddr) (v : Byte) : (wReg1 a v s).responses = s.responses := by
  rw [wReg1_state]
@[simp] theorem wReg1_hostScript (a : RegAddr) (v : Byte) : (wReg1 a v s).hostScript = s.hostScript := by
  rw [wReg1_state]
@[simp] theorem wReg1_wireSlot (a : RegAddr) (v : Byte) : (wReg1 a v s).wireSlot = s.wireSlot := by
  rw [wReg1_state]
@[simp] theorem wReg1_oracle (a : RegAddr) (v : Byte) : (wReg1 a v s).oracle = s.oracle := by
  rw [wReg1_state]

/-! ### rReg1 -/
@[simp] theorem rReg1_par (a : RegAddr) : ((rReg1 a s).2).par = s.par := by
  rw [rReg1_state]
@[simp] theorem rReg1_hstate (a : RegAddr) : ((rReg1 a s).2).hstate = s.hstate := by
  rw [rReg1_state]
@[simp] theorem rReg1_cfg (a : RegAddr) : ((rReg1 a s).2).cfg = s.cfg := by
  rw [rReg1_state]
@[simp] theorem rReg1_acq (a : RegAddr) : ((rReg1 a s).2).acq = s.acq := by
  rw [rReg1_state]
@[simp] theorem rReg1_contMode (a : RegAddr) : ((rReg1 a s).2).contMode = s.contMode := by
  rw [rReg1_state]
@[simp] theorem rReg1_scan (a : RegAddr) : ((rReg1 a s).2).scan = s.scan := by
  rw [rReg1_state]
@[simp] theorem rReg1_dacA (a : RegAddr) : ((rReg1 a s).2).dacA = s.dacA := by
  rw [rReg1_state]
@[simp] theorem rReg1_dacB (a : RegAddr) : ((rReg1 a s).2).dacB = s.dacB := by
  rw [rReg1_state]
@[simp] theorem rReg1_mon (a : RegAddr) : ((rReg1 a s).2).mon = s.mon := by
  rw [rReg1_state]
@[simp] theorem rReg1_warnLog (a : RegAddr) : ((rReg1 a s).2).warnLog = s.warnLog := by
  rw [rReg1_state]
@[simp] theorem rReg1_reqPort (a : RegAddr) : ((rReg1 a s).2).reqPort = s.reqPort := by
  rw [rReg1_state]
@[simp] theorem rReg1_responses (a : RegAddr) : ((rReg1 a s).2).responses = s.responses := by
  rw [rReg1_state]
@[simp] theorem rReg1_hostScript (a : RegAddr) : ((rReg1 a s).2).hostScript = s.hostScript := by
  rw [rReg1_state]
@[simp] theorem rReg1_wireSlot (a : RegAddr) : ((rReg1 a s).2).wireSlot = s.wireSlot := by
  rw [rReg1_state]

/-! ### rData -/
@[simp] theorem rData_par : ((rData s).2).par = s.par := by
  obtain ⟨a, b, c, -, h⟩ := rData_state s; rw [h]
@[simp] theorem rData_hstate : ((rData s).2).hstate = s.hstate := by
  obtain ⟨a, b, c, -, h⟩ := rData_state s; rw [h]
@[simp] theorem rData_cfg : ((rData s).2).cfg = s.cfg := by
  obtain ⟨a, b, c, -, h⟩ := rData_state s; rw [h]
@[simp] theorem rData_acq : ((rData s).2).acq = s.acq := by
  obtain ⟨a, b, c, -, h⟩ := rData_state s; rw [h]
@[simp] theorem rData_contMode : ((rData s).2).contMode = s.contMode := by
  obtain ⟨a, b, c, -, h⟩ := rData_state s; rw [h]
@[simp] theorem rData_scan : ((rData s).2).scan = s.scan := by
  obtain ⟨a, b, c, -, h⟩ := rData_state s; rw [h]
@[simp] theorem rData_dacA : ((rData s).2).dacA = s.dacA := by
  obtain ⟨a, b, c, -, h⟩ := rData_state s; rw [h]
@[simp] theorem rData_dacB : ((rData s).2).dacB = s.dacB := by
  obtain ⟨a, b, c, -, h⟩ := rData_state s; rw [h]
@[simp] theorem rData_mon : ((rData s).2).mon = s.mon := by
  obtain ⟨a, b, c, -, h⟩ := rData_state s; rw [h]
@[simp] theorem rData_warnLog : ((rData s).2).warnLog = s.warnLog := by
  obtain ⟨a, b, c, -, h⟩ := rData_state s; rw [h]
@[simp] theorem rData_reqPort : ((rData s).2).reqPort = s.reqPort := by
  obtain ⟨a, b, c, -, h⟩ := rData_state s; rw [h]
@[simp] theorem rData_responses : ((rData s).2).responses = s.responses := by
  obtain ⟨a, b, c, -, h⟩ := rData_state s; rw [h]
@[simp] theorem rData_hostScript : ((rData s).2).hostScript = s.hostScript := by
  obtain ⟨a, b, c, -, h⟩ := rData_state s; rw [h]
@[simp] theorem rData_wireSlot : ((rData s).2).wireSlot = s.wireSlot := by
  obtain ⟨a, b, c, -, h⟩ := rData_state s; rw [h]

/-! ### dacFrame -/
@[simp] theorem dacFrame_par (ch : DacChannel) (code : DacCode) : (dacFrame ch code s).par = s.par := by
  rw [dacFrame_state]
@[simp] theorem dacFrame_hstate (ch : DacChannel) (code : DacCode) : (dacFrame ch code s).hstate = s.hstate := by
  rw [dacFrame_state]
@[simp] theorem dacFrame_cfg (ch : DacChannel) (code : DacCode) : (dacFrame ch code s).cfg = s.cfg := by
  rw [dacFrame_state]
@[simp] theorem dacFrame_acq (ch : DacChannel) (code : DacCode) : (dacFrame ch code s).acq = s.acq := by
  rw [dacFrame_state]
@[simp] theorem dacFrame_contMode (ch : DacChannel) (code : DacCode) : (dacFrame ch code s).contMode = s.contMode := by
  rw [dacFrame_state]
@[simp] theorem dacFrame_scan (ch : DacChannel) (code : DacCode) : (dacFrame ch code s).scan = s.scan := by
  rw [dacFrame_state]
@[simp] theorem dacFrame_dacA (ch : DacChannel) (code : DacCode) : (dacFrame ch code s).dacA = s.dacA := by
  rw [dacFrame_state]
@[simp] theorem dacFrame_dacB (ch : DacChannel) (code : DacCode) : (dacFrame ch code s).dacB = s.dacB := by
  rw [dacFrame_state]
@[simp] theorem dacFrame_mon (ch : DacChannel) (code : DacCode) : (dacFrame ch code s).mon = s.mon := by
  rw [dacFrame_state]
@[simp] theorem dacFrame_warnLog (ch : DacChannel) (code : DacCode) : (dacFrame ch code s).warnLog = s.warnLog := by
  rw [dacFrame_state]
@[simp] theorem dacFrame_reqPort (ch : DacChannel) (code : DacCode) : (dacFrame ch code s).reqPort = s.reqPort := by
  rw [dacFrame_state]
@[simp] theorem dacFrame_responses (ch : DacChannel) (code : DacCode) : (dacFrame ch code s).responses = s.responses := by
  rw [dacFrame_state]
@[simp] theorem dacFrame_hostScript (ch : DacChannel) (code : DacCode) : (dacFrame ch code s).hostScript = s.hostScript := by
  rw [dacFrame_state]
@[simp] theorem dacFrame_wireSlot (ch : DacChannel) (code : DacCode) : (dacFrame ch code s).wireSlot = s.wireSlot := by
  rw [dacFrame_state]
@[simp] theorem dacFrame_oracle (ch : DacChannel) (code : DacCode) : (dacFrame ch code s).oracle = s.oracle := by
  rw [dacFrame_state]

/-! ### resetPulse -/
@[simp] theorem resetPulse_par : (resetPulse s).par = s.par := by
  simp [resetPulse, setRst, delay]
@[simp] theorem resetPulse_hstate : (resetPulse s).hstate = s.hstate := by
  simp [resetPulse, setRst, delay]
@[simp] theorem resetPulse_cfg : (resetPulse s).cfg = s.cfg := by
  simp [resetPulse, setRst, delay]
@[simp] theorem resetPulse_acq : (resetPulse s).acq = s.acq := by
  simp [resetPulse, setRst, delay]
@[simp] theorem resetPulse_contMode : (resetPulse s).contMode = s.contMode := by
  simp [resetPulse, setRst, delay]
@[simp] theorem resetPulse_scan : (resetPulse s).scan = s.scan := by
  simp [resetPulse, setRst, delay]
@[simp] theorem resetPulse_dacA : (resetPulse s).dacA = s.dacA := by
  simp [resetPulse, setRst, delay]
@[simp] theorem resetPulse_dacB : (resetPulse s).dacB = s.dacB := by
  simp [resetPulse, setRst, delay]
@[simp] theorem resetPulse_mon : (resetPulse s).mon = s.mon := by
  simp [resetPulse, setRst, delay]
@[simp] theorem resetPulse_warnLog : (resetPulse s).warnLog = s.warnLog := by
  simp [resetPulse, setRst, delay]
@[simp] theorem resetPulse_reqPort : (resetPulse s).reqPort = s.reqPort := by
  simp [resetPulse, setRst, delay]
@[simp] theorem resetPulse_responses : (resetPulse s).responses = s.responses := by
  simp [resetPulse, setRst, delay]
@[simp] theorem resetPulse_hostScript : (resetPulse s).hostScript = s.hostScript := by
  simp [resetPulse, setRst, delay]
@[simp] theorem resetPulse_wireSlot : (resetPulse s).wireSlot = s.wireSlot := by
  simp [resetPulse, setRst, delay]
@[simp] theorem resetPulse_oracle : (resetPulse s).oracle = s.oracle := by
  simp [resetPulse, setRst, delay]

/-! ### acquire -/
@[simp] theorem acquire_par {n : Byte} (hn : n ≠ 0#8) (op : AcqOp) (slot : Nat) (ch : Int) : ((acquire op slot ch n s).2).par = s.par := by
  obtain ⟨a, e, w, ⟨o, ls, h, -⟩, -⟩ := acquire_spec hn op slot ch s; rw [h]
@[simp] theorem acquire_hstate {n : Byte} (hn : n ≠ 0#8) (op : AcqOp) (slot : Nat) (ch : Int) : ((acquire op slot ch n s).2).hstate = s.hstate := by
  obtain ⟨a, e, w, ⟨o, ls, h, -⟩, -⟩ := acquire_spec hn op slot ch s; rw [h]
@[simp] theorem acquire_cfg {n : Byte} (hn : n ≠ 0#8) (op : AcqOp) (slot : Nat) (ch : Int) : ((acquire op slot ch n s).2).cfg = s.cfg := by
  obtain ⟨a, e, w, ⟨o, ls, h, -⟩, -⟩ := acquire_spec hn op slot ch s; rw [h]
@[simp] theorem acquire_contMode {n : Byte} (hn : n ≠ 0#8) (op : AcqOp) (slot : Nat) (ch : Int) : ((acquire op slot ch n s).2).contMode = s.contMode := by
  obtain ⟨a, e, w, ⟨o, ls, h, -⟩, -⟩ := acquire_spec hn op slot ch s; rw [h]
@[simp] theorem acquire_scan {n : Byte} (hn : n ≠ 0#8) (op : AcqOp) (slot : Nat) (ch : Int) : ((acquire op slot ch n s).2).scan = s.scan := by
  obtain ⟨a, e, w, ⟨o, ls, h, -⟩, -⟩ := acquire_spec hn op slot ch s; rw [h]
@[simp] theorem acquire_dacA {n : Byte} (hn : n ≠ 0#8) (op : AcqOp) (slot : Nat) (ch : Int) : ((acquire op slot ch n s).2).dacA = s.dacA := by
  obtain ⟨a, e, w, ⟨o, ls, h, -⟩, -⟩ := acquire_spec hn op slot ch s; rw [h]
@[simp] theorem acquire_dacB {n : Byte} (hn : n ≠ 0#8) (op : AcqOp) (slot : Nat) (ch : Int) : ((acquire op slot ch n s).2).dacB = s.dacB := by
  obtain ⟨a, e, w, ⟨o, ls, h, -⟩, -⟩ := acquire_spec hn op slot ch s; rw [h]
@[simp] theorem acquire_mon {n : Byte} (hn : n ≠ 0#8) (op : AcqOp) (slot : Nat) (ch : Int) : ((acquire op slot ch n s).2).mon = s.mon := by
  obtain ⟨a, e, w, ⟨o, ls, h, -⟩, -⟩ := acquire_spec hn op slot ch s; rw [h]
@[simp] theorem acquire_reqPort {n : Byte} (hn : n ≠ 0#8) (op : AcqOp) (slot : Nat) (ch : Int) : ((acquire op slot ch n s).2).reqPort = s.reqPort := by
  obtain ⟨a, e, w, ⟨o, ls, h, -⟩, -⟩ := acquire_spec hn op slot ch s; rw [h]
@[simp] theorem acquire_responses {n : Byte} (hn : n ≠ 0#8) (op : AcqOp) (slot : Nat) (ch : Int) : ((acquire op slot ch n s).2).responses = s.responses := by
  obtain ⟨a, e, w, ⟨o, ls, h, -⟩, -⟩ := acquire_spec hn op slot ch s; rw [h]
@[simp] theorem acquire_hostScript {n : Byte} (hn : n ≠ 0#8) (op : AcqOp) (slot : Nat) (ch : Int) : ((acquire op slot ch n s).2).hostScript = s.hostScript := by
  obtain ⟨a, e, w, ⟨o, ls, h, -⟩, -⟩ := acquire_spec hn op slot ch s; rw [h]
@[simp] theorem acquire_wireSlot {n : Byte} (hn : n ≠ 0#8) (op : AcqOp) (slot : Nat) (ch : Int) : ((acquire op slot ch n s).2).wireSlot = s.wireSlot := by
  obtain ⟨a, e, w, ⟨o, ls, h, -⟩, -⟩ := acquire_spec hn op slot ch s; rw [h]

/-! ### scanRun -/
@[simp] theorem scanRun_par {n : Byte} (hn : n ≠ 0#8) {l : List Int} (hl : l.length ≤ 8) : (scanRun l n s).par = s.par := by
  obtain ⟨a, e, w, vs, r, m, ls, o, h, -⟩ := scanRun_spec hn hl s; rw [h]
@[simp] theorem scanRun_hstate {n : Byte} (hn : n ≠ 0#8) {l : List Int} (hl : l.length ≤ 8) : (scanRun l n s).hstate = s.hstate := by
  obtain ⟨a, e, w, vs, r, m, ls, o, h, -⟩ := scanRun_spec hn hl s; rw [h]
@[simp] theorem scanRun_cfg {n : Byte} (hn : n ≠ 0#8) {l : List Int} (hl : l.length ≤ 8) : (scanRun l n s).cfg = s.cfg := by
  obtain ⟨a, e, w, vs, r, m, ls, o, h, -⟩ := scanRun_spec hn hl s; rw [h]
@[simp] theorem scanRun_contMode {n : Byte} (hn : n ≠ 0#8) {l : List Int} (hl : l.length ≤ 8) : (scanRun l n s).contMode = s.contMode := by
  obtain ⟨a, e, w, vs, r, m, ls, o, h, -⟩ := scanRun_spec hn hl s; rw [h]
@[simp] theorem scanRun_dacA {n : Byte} (hn : n ≠ 0#8) {l : List Int} (hl : l.length ≤ 8) : (scanRun l n s).dacA = s.dacA := by
  obtain ⟨a, e, w, vs, r, m, ls, o, h, -⟩ := scanRun_spec hn hl s; rw [h]
@[simp] theorem scanRun_dacB {n : Byte} (hn : n ≠ 0#8) {l : List Int} (hl : l.length ≤ 8) : (scanRun l n s).dacB = s.dacB := by
  obtain ⟨a, e, w, vs, r, m, ls, o, h, -⟩ := scanRun_spec hn hl s; rw [h]
@[simp] theorem scanRun_reqPort {n : Byte} (hn : n ≠ 0#8) {l : List Int} (hl : l.length ≤ 8) : (scanRun l n s).reqPort = s.reqPort := by
  obtain ⟨a, e, w, vs, r, m, ls, o, h, -⟩ := scanRun_spec hn hl s; rw [h]
@[simp] theorem scanRun_responses {n : Byte} (hn : n ≠ 0#8) {l : List Int} (hl : l.length ≤ 8) : (scanRun l n s).responses = s.responses := by
  obtain ⟨a, e, w, vs, r, m, ls, o, h, -⟩ := scanRun_spec hn hl s; rw [h]
@[simp] theorem scanRun_hostScript {n : Byte} (hn : n ≠ 0#8) {l : List Int} (hl : l.length ≤ 8) : (scanRun l n s).hostScript = s.hostScript := by
  obtain ⟨a, e, w, vs, r, m, ls, o, h, -⟩ := scanRun_spec hn hl s; rw [h]
@[simp] theorem scanRun_wireSlot {n : Byte} (hn : n ≠ 0#8) {l : List Int} (hl : l.length ≤ 8) : (scanRun l n s).wireSlot = s.wireSlot := by
  obtain ⟨a, e, w, vs, r, m, ls, o, h, -⟩ := scanRun_spec hn hl s; rw [h]

/-! ### deriveNow -/
@[simp] theorem deriveNow_par : (deriveNow s).par = s.par := by
  rfl
@[simp] theorem deriveNow_hstate : (deriveNow s).hstate = s.hstate := by
  rfl
@[simp] theorem deriveNow_cfg : (deriveNow s).cfg = s.cfg := by
  rfl
@[simp] theorem deriveNow_acq : (deriveNow s).acq = s.acq := by
  rfl
@[simp] theorem deriveNow_contMode : (deriveNow s).contMode = s.contMode := by
  rfl
@[simp] theorem deriveNow_scan : (deriveNow s).scan = s.scan := by
  rfl
@[simp] theorem deriveNow_dacA : (deriveNow s).dacA = s.dacA := by
  rfl
@[simp] theorem deriveNow_dacB : (deriveNow s).dacB = s.dacB := by
  rfl
@[simp] theorem deriveNow_lines : (deriveNow s).lines = s.lines := by
  rfl
@[simp] theorem deriveNow_warnLog : (deriveNow s).warnLog = s.warnLog := by
  rfl
@[simp] theorem deriveNow_trace : (deriveNow s).trace = s.trace := by
  rfl
@[simp] theorem deriveNow_reqPort : (deriveNow s).reqPort = s.reqPort := by
  rfl
@[simp] theorem deriveNow_responses : (deriveNow s).responses = s.responses := by
  rfl
@[simp] theorem deriveNow_hostScript : (deriveNow s).hostScript = s.hostScript := by
  rfl
@[simp] theorem deriveNow_wireSlot : (deriveNow s).wireSlot = s.wireSlot := by
  rfl

/-! ### The transport and the acquisition's registers -/
@[simp] theorem waitReady_acq_phase (site : Site) : (waitReady site s).acq.phase = s.acq.phase := by
  obtain ⟨k, e, w, o, h, -⟩ := waitReady_spec site s; rw [h]
@[simp] theorem waitReady_acq_settleN (site : Site) : (waitReady site s).acq.settleN = s.acq.settleN := by
  obtain ⟨k, e, w, o, h, -⟩ := waitReady_spec site s; rw [h]
@[simp] theorem waitReady_acq_settleK (site : Site) : (waitReady site s).acq.settleK = s.acq.settleK := by
  obtain ⟨k, e, w, o, h, -⟩ := waitReady_spec site s; rw [h]
@[simp] theorem waitReady_acq_ch (site : Site) : (waitReady site s).acq.ch = s.acq.ch := by
  obtain ⟨k, e, w, o, h, -⟩ := waitReady_spec site s; rw [h]
@[simp] theorem waitReady_acq_mux (site : Site) : (waitReady site s).acq.mux = s.acq.mux := by
  obtain ⟨k, e, w, o, h, -⟩ := waitReady_spec site s; rw [h]
@[simp] theorem waitReady_acq_lastSample (site : Site) : (waitReady site s).acq.lastSample = s.acq.lastSample := by
  obtain ⟨k, e, w, o, h, -⟩ := waitReady_spec site s; rw [h]
@[simp] theorem sendCmd_held (c : Byte) : (sendCmd c s).lines.held = s.lines.held := by
  simp [sendCmd_state]
@[simp] theorem wReg1_held (a : RegAddr) (v : Byte) : (wReg1 a v s).lines.held = s.lines.held := by
  simp [wReg1_state]
@[simp] theorem rReg1_held (a : RegAddr) : ((rReg1 a s).2).lines.held = s.lines.held := by
  simp [rReg1_state]
@[simp] theorem rData_held : ((rData s).2).lines.held = s.lines.held := by
  obtain ⟨a, b, c, -, h⟩ := rData_state s; simp [h]
@[simp] theorem dacFrame_held (ch : DacChannel) (code : DacCode) : (dacFrame ch code s).lines.held = s.lines.held := by
  simp [dacFrame_state]
@[simp] theorem setRst_held (l : Level) : (setRst l s).lines.held = s.lines.held := by
  unfold setRst; split <;> simp
@[simp] theorem resetPulse_held : (resetPulse s).lines.held = s.lines.held := by
  simp [resetPulse, delay]
@[simp] theorem acquire_held {n : Byte} (hn : n ≠ 0#8) (op : AcqOp) (slot : Nat) (ch : Int) : ((acquire op slot ch n s).2).lines.held = s.lines.held := by
  obtain ⟨a, e, w, ⟨o, ls, h, hl, -⟩, -⟩ := acquire_spec hn op slot ch s
  rcases hl with rfl | rfl <;> simp [h]
@[simp] theorem scanRun_held {n : Byte} (hn : n ≠ 0#8) {l : List Int} (hl : l.length ≤ 8) : (scanRun l n s).lines.held = s.lines.held := by
  obtain ⟨a, e, w, vs, r, m, ls, o, h, hl, -⟩ := scanRun_spec hn hl s
  rcases hl with rfl | rfl <;> simp [h]

/-! ### runCmd -/
@[simp] theorem runCmd_par (c : Byte) : (runCmd c s).par = s.par := by
  unfold runCmd
  (repeat' split) <;> simp [wakeupCmd, syncCmd, selfcalCmd, rdatacCmd, sdatacCmd, resetCmd]
@[simp] theorem runCmd_hstate (c : Byte) : (runCmd c s).hstate = s.hstate := by
  unfold runCmd
  (repeat' split) <;> simp [wakeupCmd, syncCmd, selfcalCmd, rdatacCmd, sdatacCmd, resetCmd]
@[simp] theorem runCmd_scan (c : Byte) : (runCmd c s).scan = s.scan := by
  unfold runCmd
  (repeat' split) <;> simp [wakeupCmd, syncCmd, selfcalCmd, rdatacCmd, sdatacCmd, resetCmd]
@[simp] theorem runCmd_dacA (c : Byte) : (runCmd c s).dacA = s.dacA := by
  unfold runCmd
  (repeat' split) <;> simp [wakeupCmd, syncCmd, selfcalCmd, rdatacCmd, sdatacCmd, resetCmd]
@[simp] theorem runCmd_dacB (c : Byte) : (runCmd c s).dacB = s.dacB := by
  unfold runCmd
  (repeat' split) <;> simp [wakeupCmd, syncCmd, selfcalCmd, rdatacCmd, sdatacCmd, resetCmd]
@[simp] theorem runCmd_mon (c : Byte) : (runCmd c s).mon = s.mon := by
  unfold runCmd
  (repeat' split) <;> simp [wakeupCmd, syncCmd, selfcalCmd, rdatacCmd, sdatacCmd, resetCmd]
@[simp] theorem runCmd_reqPort (c : Byte) : (runCmd c s).reqPort = s.reqPort := by
  unfold runCmd
  (repeat' split) <;> simp [wakeupCmd, syncCmd, selfcalCmd, rdatacCmd, sdatacCmd, resetCmd]
@[simp] theorem runCmd_responses (c : Byte) : (runCmd c s).responses = s.responses := by
  unfold runCmd
  (repeat' split) <;> simp [wakeupCmd, syncCmd, selfcalCmd, rdatacCmd, sdatacCmd, resetCmd]
@[simp] theorem runCmd_hostScript (c : Byte) : (runCmd c s).hostScript = s.hostScript := by
  unfold runCmd
  (repeat' split) <;> simp [wakeupCmd, syncCmd, selfcalCmd, rdatacCmd, sdatacCmd, resetCmd]
@[simp] theorem runCmd_wireSlot (c : Byte) : (runCmd c s).wireSlot = s.wireSlot := by
  unfold runCmd
  (repeat' split) <;> simp [wakeupCmd, syncCmd, selfcalCmd, rdatacCmd, sdatacCmd, resetCmd]

/-! ### identify -/
@[simp] theorem identify_par : ((identify s).2).par = s.par := by
  simp [identify, holdLines]
@[simp] theorem identify_hstate : ((identify s).2).hstate = s.hstate := by
  simp [identify, holdLines]
@[simp] theorem identify_cfg : ((identify s).2).cfg = s.cfg := by
  simp [identify, holdLines]
@[simp] theorem identify_contMode : ((identify s).2).contMode = s.contMode := by
  simp [identify, holdLines]
@[simp] theorem identify_scan : ((identify s).2).scan = s.scan := by
  simp [identify, holdLines]
@[simp] theorem identify_dacA : ((identify s).2).dacA = s.dacA := by
  simp [identify, holdLines]
@[simp] theorem identify_dacB : ((identify s).2).dacB = s.dacB := by
  simp [identify, holdLines]
@[simp] theorem identify_mon : ((identify s).2).mon = s.mon := by
  simp [identify, holdLines]
@[simp] theorem identify_reqPort : ((identify s).2).reqPort = s.reqPort := by
  simp [identify, holdLines]
@[simp] theorem identify_responses : ((identify s).2).responses = s.responses := by
  simp [identify, holdLines]
@[simp] theorem identify_hostScript : ((identify s).2).hostScript = s.hostScript := by
  simp [identify, holdLines]
@[simp] theorem identify_wireSlot : ((identify s).2).wireSlot = s.wireSlot := by
  simp [identify, holdLines]
@[simp] theorem runCmd_held (c : Byte) : (runCmd c s).lines.held = s.lines.held := by
  unfold runCmd
  (repeat' split) <;> simp [wakeupCmd, syncCmd, selfcalCmd, rdatacCmd, sdatacCmd, resetCmd]
@[simp] theorem runCmd_lastSample (c : Byte) : (runCmd c s).acq.lastSample = s.acq.lastSample := by
  unfold runCmd
  (repeat' split) <;> simp [wakeupCmd, syncCmd, selfcalCmd, rdatacCmd, sdatacCmd, resetCmd]
@[simp] theorem identify_lastSample : (identify s).2.acq.lastSample = s.acq.lastSample := by
  simp [identify, holdLines]

end Sys2Proof.Machine
end

