-- ==== Sys2Proof/Laws/PerInstr.lean ====
section
/-! SUPPORT. One statement per instruction: its encoding has the length its first byte fixes
(spec/30_encoding.md R66, R80, R84). -/

namespace Sys2Proof.Laws.FrameLength

open Sys2Proof

/-- R66: how many response bytes a command's transaction shifts in. -/
def bytesIn : Instr → Nat
  | .adcRdata => 3
  | .adcRreg _ => 1
  | .adcWakeup | .adcRdatac | .adcSdatac | .adcWreg _ _ | .adcSelfcal | .adcSync | .adcReset
  | .dacWriteA _ | .dacWriteB _ | .hostInit | .hostReset | .hostShutdown | .hostConfigure _ _ _
  | .hostSetScanMode _ | .hostGetConfig | .hostReadChannel _ | .hostScanChannels _ _ | .hostWriteCmd _
  | .hostWriteReg _ _ | .hostReadReg _ | .hostDacWrite _ _ | .hostPerfBegin _ | .hostPerfReport
  | .hostRawToVoltage _ _ _ _ => 0

/-- A host operation encodes to a request with a tag of R80, an ADC command to a frame of exactly the
bytes R84 gives its first byte, a DAC write to three bytes. -/
def Statement (i : Instr) : Prop :=
  ∀ p : Params, p.wf = true → i.wellFormed p = true →
    match encode p i with
    | .host r => r.op ∈ hostTags
    | .wire (.adc bytes) => adcFrameLength p bytes = some (bytes.length, bytesIn i)
    | .wire (.dac bytes) => bytes.length = 3

/-- A solo command byte that is not RDATA is a whole frame with nothing in. -/
theorem solo_length {p : Params} {b : Byte} (h : (decodeSolo p b).isSome) (hb : b ≠ p.cmdRdata) :
    adcFrameLength p [b] = some (1, 0) := by
  simp [adcFrameLength, h, hb]

theorem hostInit : Statement .hostInit := fun _ _ _ => by simp [encode, Request.ofTag, hostTags]
theorem hostReset : Statement .hostReset := fun _ _ _ => by simp [encode, Request.ofTag, hostTags]
theorem hostShutdown : Statement .hostShutdown := fun _ _ _ => by simp [encode, Request.ofTag, hostTags]
theorem hostConfigure (g : GainCode) (d : RateIndex) (b : BitVec 1) : Statement (.hostConfigure g d b) :=
  fun _ _ _ => by simp [encode, Request.ofTag, hostTags]
theorem hostSetScanMode (m : ScanMode) : Statement (.hostSetScanMode m) :=
  fun _ _ _ => by simp [encode, Request.ofTag, hostTags]
theorem hostGetConfig : Statement .hostGetConfig := fun _ _ _ => by simp [encode, Request.ofTag, hostTags]
theorem hostReadChannel (ch : Int) : Statement (.hostReadChannel ch) :=
  fun _ _ _ => by simp [encode, Request.ofTag, hostTags]
theorem hostScanChannels (l : List Int) (n : Byte) : Statement (.hostScanChannels l n) :=
  fun _ _ _ => by simp [encode, Request.ofTag, hostTags]
theorem hostWriteCmd (c : Byte) : Statement (.hostWriteCmd c) :=
  fun _ _ _ => by simp [encode, Request.ofTag, hostTags]
theorem hostWriteReg (a : RegAddr) (v : Byte) : Statement (.hostWriteReg a v) :=
  fun _ _ _ => by simp [encode, Request.ofTag, hostTags]
theorem hostReadReg (a : RegAddr) : Statement (.hostReadReg a) :=
  fun _ _ _ => by simp [encode, Request.ofTag, hostTags]
theorem hostDacWrite (ch : Int) (c : DacCode) : Statement (.hostDacWrite ch c) :=
  fun _ _ _ => by simp [encode, Request.ofTag, hostTags]
theorem hostPerfBegin (d : RateIndex) : Statement (.hostPerfBegin d) :=
  fun _ _ _ => by simp [encode, Request.ofTag, hostTags]
theorem hostPerfReport : Statement .hostPerfReport := fun _ _ _ => by simp [encode, Request.ofTag, hostTags]
theorem hostRawToVoltage (c : Sample) (g : Nat) (vp vn : Rat) : Statement (.hostRawToVoltage c g vp vn) :=
  fun _ _ _ => by simp [encode, Request.ofTag, hostTags]

theorem adcWakeup : Statement .adcWakeup := by
  intro p hp _
  have hn := (Params.sound hp).soloNodup
  refine solo_length (by rw [(decodeSolo_solo hn).1]; rfl) ?_
  simp [Params.soloBytes] at hn
  tauto

theorem adcRdata : Statement .adcRdata := fun p _ _ => by simp [encode, adcFrameLength, bytesIn]

theorem adcRdatac : Statement .adcRdatac := by
  intro p hp _
  have hn := (Params.sound hp).soloNodup
  refine solo_length (by rw [(decodeSolo_solo hn).2.2.1]; rfl) (Ne.symm ?_)
  simp [Params.soloBytes] at hn
  tauto

theorem adcSdatac : Statement .adcSdatac := by
  intro p hp _
  have hn := (Params.sound hp).soloNodup
  refine solo_length (by rw [(decodeSolo_solo hn).2.2.2.1]; rfl) (Ne.symm ?_)
  simp [Params.soloBytes] at hn
  tauto

theorem adcRreg (a : RegAddr) : Statement (.adcRreg a) := by
  intro p hp _
  have h := Params.sound hp
  have hb := regOpByte_not_solo h a
  have hd : regOpByte p.cmdRreg a ≠ p.cmdRdata := fun e => hb.1 (by simp [e, Params.soloBytes])
  simp [encode, rregBytes, adcFrameLength, hd, decodeSolo_none hb.1, hiNibble_regOpByte,
    h.opcodesDiffer, bytesIn, countByte, loNibble]

theorem adcWreg (a : RegAddr) (v : Byte) : Statement (.adcWreg a v) := by
  intro p hp _
  have h := Params.sound hp
  have hb := regOpByte_not_solo h a
  have hd : regOpByte p.cmdWreg a ≠ p.cmdRdata := fun e => hb.2 (by simp [e, Params.soloBytes])
  simp [encode, wregBytes, adcFrameLength, hd, decodeSolo_none hb.2, hiNibble_regOpByte, bytesIn,
    countByte, loNibble]

theorem adcSelfcal : Statement .adcSelfcal := by
  intro p hp _
  have hn := (Params.sound hp).soloNodup
  refine solo_length (by rw [(decodeSolo_solo hn).2.2.2.2.1]; rfl) (Ne.symm ?_)
  simp [Params.soloBytes] at hn
  tauto

theorem adcSync : Statement .adcSync := by
  intro p hp _
  have hn := (Params.sound hp).soloNodup
  refine solo_length (by rw [(decodeSolo_solo hn).2.2.2.2.2.1]; rfl) (Ne.symm ?_)
  simp [Params.soloBytes] at hn
  tauto

theorem adcReset : Statement .adcReset := by
  intro p hp _
  have hn := (Params.sound hp).soloNodup
  refine solo_length (by rw [(decodeSolo_solo hn).2.2.2.2.2.2]; rfl) (Ne.symm ?_)
  simp [Params.soloBytes] at hn
  tauto

theorem dacWriteA (c : DacCode) : Statement (.dacWriteA c) := fun p _ _ => by simp [encode, dacBytes]
theorem dacWriteB (c : DacCode) : Statement (.dacWriteB c) := fun p _ _ => by simp [encode, dacBytes]

end Sys2Proof.Laws.FrameLength
end

