-- ==== Sys2Proof/Tests/Slice0.lean ====
section
/-! SUPPORT. Tests. Expected results are the vectors of spec/95_test_vectors.md (named by their id) and
the encoding tables of spec/30_encoding.md, worked by hand. -/

namespace Sys2Proof.Tests

open Sys2Proof Sys2Proof.Machine

/-! ### Well-formedness: each check refuses an ill-formed term -/

/-- R27: code 7 is no gain. -/
theorem test_wf_gain : (Instr.hostConfigure 7#3 0#4 0#1).wellFormed Params.default = false := by decide

/-- SCAN-4: nine entries. -/
theorem test_wf_scan_length :
    (Instr.hostScanChannels [0, 1, 2, 3, 4, 5, 6, 7, 0] 1#8).wellFormed Params.default = false := by decide

/-- SCAN-5: settling count 0. -/
theorem test_wf_settle : (Instr.hostScanChannels [0] 0#8).wellFormed Params.default = false := by decide

/-- CMD-9: RDATA is not admitted. -/
theorem test_wf_cmd : (Instr.hostWriteCmd 0x01#8).wellFormed Params.default = false := by decide

/-- CMD-16, CMD-19: addresses above 0xA. -/
theorem test_wf_register :
    (Instr.hostWriteReg 0xB#4 0#8).wellFormed Params.default = false ∧
    (Instr.hostReadReg 0xF#4).wellFormed Params.default = false ∧
    (Instr.adcRreg 0xB#4).wellFormed Params.default = false ∧
    (Instr.adcWreg 0xB#4 0#8).wellFormed Params.default = false := by decide

/-- CODEC-6, CODEC-7: 3 and 0 are no multipliers. -/
theorem test_wf_mult :
    (Instr.hostRawToVoltage 0#32 3 5 0).wellFormed Params.default = false ∧
    (Instr.hostRawToVoltage 0#32 0 5 0).wellFormed Params.default = false := by decide

/-! ### Decoding: words written out from R80, R83, R85, R87 -/

/-- R80: the fifteen tags. -/
theorem test_decode_host :
    [0x01, 0x02, 0x03, 0x10, 0x11, 0x12, 0x20, 0x21, 0x30, 0x31, 0x32, 0x40, 0x50, 0x51, 0x60].map
      (decodeTableWord 8) =
    [.hostInit, .hostReset, .hostShutdown, .hostConfigure 0#3 0#4 0#1, .hostSetScanMode .se,
      .hostGetConfig, .hostReadChannel 0, .hostScanChannels [] 0#8, .hostWriteCmd 0#8,
      .hostWriteReg 0#4 0#8, .hostReadReg 0#4, .hostDacWrite 0 0#16, .hostPerfBegin 0#4,
      .hostPerfReport, .hostRawToVoltage 0#32 0 0 0].map some := by decide +kernel

/-- CFG-1, CFG-7, SCAN-1, DAC-2: requests with their typed fields. -/
theorem test_decode_host_fields :
    decodeRequest { Request.ofTag 0x10#8 with gain := 3#3, drate := 7#4, bufen := 1#1 } =
      .ok (.hostConfigure 3#3 7#4 1#1) ∧
    decodeRequest { Request.ofTag 0x11#8 with mode := 1#1 } = .ok (.hostSetScanMode .diff) ∧
    decodeRequest { Request.ofTag 0x21#8 with list := [3, 1, 3, 0], settle := 1#8 } =
      .ok (.hostScanChannels [3, 1, 3, 0] 1#8) ∧
    decodeRequest { Request.ofTag 0x40#8 with ch := 1, dacCode := 0xFFFF#16 } =
      .ok (.hostDacWrite 1 0xFFFF#16) := ⟨rfl, rfl, rfl, rfl⟩

/-- R85: the nine commands; the register opcodes carry address 3 and address 4. -/
theorem test_decode_adc :
    decodeAdc Params.default [0x00#8] = .ok .adcWakeup ∧
    decodeAdc Params.default [0x01#8] = .ok .adcRdata ∧
    decodeAdc Params.default [0x03#8] = .ok .adcRdatac ∧
    decodeAdc Params.default [0x0F#8] = .ok .adcSdatac ∧
    decodeAdc Params.default [0x13#8, 0x00#8] = .ok (.adcRreg 3#4) ∧
    decodeAdc Params.default [0x54#8, 0x00#8, 0xE0#8] = .ok (.adcWreg 4#4 0xE0#8) ∧
    decodeAdc Params.default [0xF0#8] = .ok .adcSelfcal ∧
    decodeAdc Params.default [0xFC#8] = .ok .adcSync ∧
    decodeAdc Params.default [0xFE#8] = .ok .adcReset := ⟨rfl, rfl, rfl, rfl, rfl, rfl, rfl, rfl, rfl⟩

/-- DAC-1, DAC-2. -/
theorem test_decode_dac :
    decodeDac Params.default [0x30#8, 0x12#8, 0x34#8] = .ok (.dacWriteA 0x1234#16) ∧
    decodeDac Params.default [0x34#8, 0xFF#8, 0xFF#8] = .ok (.dacWriteB 0xFFFF#16) := ⟨rfl, rfl⟩

/-- R93: what the block never emits does not decode. -/
theorem test_decode_rejects :
    decodeAdc Params.default [0x10#8, 0x01#8] = .error (.multiRegister 1#4) ∧
    decodeAdc Params.default [0x10#8, 0x10#8] = .error (.reservedCount 0x10#8) ∧
    decodeAdc Params.default [0x5B#8, 0x00#8, 0x00#8] = .error (.noRegister 0xB#4) ∧
    decodeAdc Params.default [0xF1#8] = .error (.notEmitted 0xF1#8) ∧
    decodeAdc Params.default [0xFC#8, 0x00#8] = .error (.badLength 0xFC#8) ∧
    decodeDac Params.default [0x31#8, 0x00#8, 0x00#8] = .error (.badDacControl 0x31#8) :=
  ⟨rfl, rfl, rfl, rfl, rfl, rfl⟩

/-- R84: a receiver's reading of a two-register WREG and of an RDATA. -/
theorem test_frame_length :
    adcFrameLength Params.default [0x51#8, 0x01#8] = some (4, 0) ∧
    adcFrameLength Params.default [0x01#8] = some (1, 3) := by decide

/-! ### Small states -/

/-- Defaults with TICK_HZ = 1000, and few polls. -/
def par : Params := { Params.default with tickHz := 1000, pollLimit := 4 }

/-- The outside's answers of one vector. -/
def answers (levels : List Level) (bytes : List Byte) (ticks : List Nat) : Oracle :=
  { Oracle.reset with levels := levels, bytes := bytes, ticks := ticks }

/-- The power-on state with a transport that opens or not. -/
def powerOn (opens : Bool) (levels : List Level) (bytes : List Byte) : State :=
  { State.reset with par := par, oracle := { answers levels bytes [] with opens := [opens] } }

/-- "READY state" of spec/95_test_vectors.md. -/
def ready (levels : List Level) (bytes : List Byte) (ticks : List Nat) : State :=
  { State.reset with
    par := par
    hstate := .ready
    lines := ⟨true, .driven .high, .driven .high, .driven .high⟩
    oracle := answers levels bytes ticks }

/-- The READY state in continuous mode with CFG (3, 7, 1, DIFF). -/
def readyCont (levels : List Level) : State :=
  { ready levels [] [] with cfg := ⟨3#3, 7#4, 1#1, .diff⟩, contMode := true }

/-- Whether an instruction answers a next state of which a test holds. -/
def after (i : Instr) (s : State) (f : State → Bool) : Bool :=
  match exec i s with
  | .next t => f t
  | .fault _ => false
  | .refused _ => false

/-- The last response of a state is this one. -/
def responds (t : State) (st : Status) (pl : Payload) : Bool := t.responses == [⟨st, pl⟩]

/-- R101's event. -/
def rreg (first v : Byte) : Event := .tx .adc [first, 0x00#8] true [v]

/-- R102's event. -/
def wreg (first v : Byte) : Event := .tx .adc [first, 0x00#8, v] false []

/-- A reset pulse with the default widths. -/
def pulse : List Event := [.rst .high, .delay 200000, .rst .low, .delay 200000, .rst .high]

/-- The events of a one-poll acquisition. -/
def acqEvents (mux b0 b1 b2 : Byte) : List Event :=
  [wreg 0x51#8 mux, .tx .adc [0xFC#8] false [], .delay (25 / 8), .tx .adc [0x00#8] false [],
    .poll .low, .tx .adc [0x01#8] true [b0, b1, b2]]

/-! ### Wire commands -/

theorem test_adc_wakeup : after .adcWakeup (ready [] [] []) (fun t =>
    t.trace == [.tx .adc [0x00#8] false []]) = true := by decide +kernel

theorem test_adc_rdata : after .adcRdata (ready [] [0x80#8, 0x00#8, 0x01#8] []) (fun t =>
    t.trace == [.tx .adc [0x01#8] true [0x80#8, 0x00#8, 0x01#8]]) = true := by decide +kernel

theorem test_adc_rdatac : after .adcRdatac (ready [] [] []) (fun t =>
    t.contMode && t.trace == [.tx .adc [0x03#8] false []]) = true := by decide +kernel

theorem test_adc_sdatac : after .adcSdatac (readyCont []) (fun t =>
    !t.contMode && t.trace == [.tx .adc [0x0F#8] false []]) = true := by decide +kernel

/-- CMD-18. -/
theorem test_adc_rreg : after (.adcRreg 3#4) (ready [] [0x82#8] []) (fun t =>
    t.trace == [rreg 0x13#8 0x82#8]) = true := by decide +kernel

/-- CMD-13. -/
theorem test_adc_wreg : after (.adcWreg 4#4 0xE0#8) (ready [] [] []) (fun t =>
    t.trace == [wreg 0x54#8 0xE0#8]) = true := by decide +kernel

/-- CMD-3. -/
theorem test_adc_selfcal : after .adcSelfcal (ready [.high, .high, .low] [] []) (fun t =>
    t.acq.pollCnt == 2 &&
      t.trace == [.tx .adc [0xF0#8] false [], .poll .high, .poll .high, .poll .low]) = true := by
  decide +kernel

theorem test_adc_sync : after .adcSync (ready [] [] []) (fun t =>
    t.trace == [.tx .adc [0xFC#8] false []]) = true := by decide +kernel

/-- CMD-4, CMD-8: the scan mode stays. -/
theorem test_adc_reset : after .adcReset (readyCont [.low]) (fun t =>
    t.cfg == ⟨0#3, 0#4, 0#1, .diff⟩ && !t.contMode) = true := by decide +kernel

/-- DAC-1: the frame alone does not write the shadow. -/
theorem test_dac_write_a : after (.dacWriteA 0x1234#16) (ready [] [] []) (fun t =>
    t.trace == [.tx .dac [0x30#8, 0x12#8, 0x34#8] false []] && t.dacA == none) = true := by
  decide +kernel

theorem test_dac_write_b : after (.dacWriteB 0xFFFF#16) (ready [] [] []) (fun t =>
    t.trace == [.tx .dac [0x34#8, 0xFF#8, 0xFF#8] false []]) = true := by decide +kernel

/-! ### Lifecycle -/

/-- LIFE-1. -/
theorem test_init_ok : after .hostInit (powerOn true [.low] [0x31#8]) (fun t =>
    t.trace == .opened true :: pulse ++ [.poll .low, rreg 0x10#8 0x31#8] && t.hstate == .ready &&
      t.lines == ⟨true, .driven .high, .driven .high, .driven .high⟩ && responds t .ok .none) = true := by
  decide +kernel

/-- LIFE-3. -/
theorem test_init_id : after .hostInit (powerOn true [.low] [0xFF#8]) (fun t =>
    t.trace == .opened true :: pulse ++ [.poll .low, rreg 0x10#8 0xFF#8, .closed] &&
      t.hstate == .uninit && t.lines == Lines.released && responds t .initId .none) = true := by
  decide +kernel

/-- LIFE-9. -/
theorem test_reset : after .hostReset (readyCont [.low]) (fun t =>
    t.trace == pulse ++ [.poll .low] && t.cfg == ⟨0#3, 0#4, 0#1, .diff⟩ && !t.contMode &&
      t.hstate == .ready) = true := by decide +kernel

/-- LIFE-8. -/
theorem test_reset_refused : after .hostReset (powerOn true [] []) (fun t =>
    t.trace == [] && responds t .notReady .none) = true := by decide +kernel

/-- LIFE-6. -/
theorem test_shutdown : after .hostShutdown (ready [] [] []) (fun t =>
    t.trace == [.closed] && t.hstate == .shutdown && t.lines == Lines.released) = true := by
  decide +kernel

/-- LIFE-7. -/
theorem test_shutdown_power_on : after .hostShutdown (powerOn true [] []) (fun t =>
    t.trace == [] && t.hstate == .shutdown && responds t .ok .none) = true := by decide +kernel

/-! ### Register file and command layer -/

/-- CFG-1. -/
theorem test_configure : after (.hostConfigure 3#3 7#4 1#1) (ready [.low, .low] [] []) (fun t =>
    t.trace == [.poll .low, wreg 0x50#8 0x06#8, wreg 0x52#8 0x03#8, wreg 0x53#8 0x82#8, .poll .low] &&
      t.cfg == ⟨3#3, 7#4, 1#1, .se⟩ && responds t .ok .none) = true := by decide +kernel

/-- CFG-6, with four polls to the bound. -/
theorem test_configure_timeout : after (.hostConfigure 1#3 5#4 0#1)
    (ready [.high, .high, .high, .high, .low] [] []) (fun t =>
      t.warnLog == [.drdyTimeout .configure .low] && t.cfg == ⟨1#3, 5#4, 0#1, .se⟩ &&
        t.acq.pollCnt == 0) = true := by decide +kernel

/-- CFG-8. -/
theorem test_set_scan_mode : after (.hostSetScanMode .se) (readyCont []) (fun t =>
    t.cfg == ⟨3#3, 7#4, 1#1, .se⟩ && t.trace == [] && responds t .ok .none) = true := by decide +kernel

/-- CFG-9. -/
theorem test_get_config : after .hostGetConfig (readyCont []) (fun t =>
    responds t .ok (.config 3#3 7#4 1#1 .diff)) = true := by decide +kernel

/-- CMD-7. -/
theorem test_write_cmd_cont : after (.hostWriteCmd 0xFC#8) (readyCont []) (fun t =>
    t.trace == [] && responds t .contMode .none) = true := by decide +kernel

/-- CMD-12. -/
theorem test_write_cmd_priority : after (.hostWriteCmd 0xF1#8) (powerOn true [] []) (fun t =>
    responds t .notReady .none) = true := by decide +kernel

/-- CMD-14. -/
theorem test_write_reg : after (.hostWriteReg 2#4 0x06#8) (ready [] [] []) (fun t =>
    t.trace == [wreg 0x52#8 0x06#8] && t.cfg == Cfg.reset) = true := by decide +kernel

/-- CMD-17. -/
theorem test_read_reg : after (.hostReadReg 0#4) (ready [] [0x31#8] []) (fun t =>
    t.trace == [rreg 0x10#8 0x31#8] && responds t .ok (.value 0x31#8)) = true := by decide +kernel

/-- CMD-20. -/
theorem test_read_reg_priority : after (.hostReadReg 0xF#4) (readyCont []) (fun t =>
    responds t .badArg .none) = true := by decide +kernel

/-! ### Conversion and scanner -/

/-- CONV-4. -/
theorem test_read_channel : after (.hostReadChannel 2)
    (ready [.low] [0x7F#8, 0xFF#8, 0xFF#8] []) (fun t =>
      t.trace == acqEvents 0x28#8 0x7F#8 0xFF#8 0xFF#8 && responds t .ok (.sample 8388607#32) &&
        t.acq == ⟨.idle, 1#8, 1#8, 0, some 2, some 0x28#8, some 8388607#32⟩) = true := by decide +kernel

/-- CONV-8. -/
theorem test_read_channel_invalid : after (.hostReadChannel 9) (ready [] [] []) (fun t =>
    t.trace == [] && t.warnLog == [.invalidChannel .readChannel 0 9] && t.acq == Acq.reset &&
      responds t .ok (.sample 0#32)) = true := by decide +kernel

/-- SCAN-2. -/
theorem test_scan : after (.hostScanChannels [9, 2] 1#8) (ready [.low] [0xFF#8, 0xFF#8, 0xFE#8] [])
    (fun t => t.trace == acqEvents 0x28#8 0xFF#8 0xFF#8 0xFE#8 &&
      t.warnLog == [.invalidChannel .scanChannels 0 9] &&
      responds t .ok (.samples [0#32, BitVec.ofInt 32 (-2)])) = true := by decide +kernel

/-- CONV-13: the other form of a settling cycle. -/
theorem test_scan_settle : after (.hostScanChannels [0] 3#8)
    { ready [.low, .high, .low, .high, .low] [0x00#8, 0x00#8, 0x2A#8] [] with
      par := { par with settleDiscardRead := false } }
    (fun t => t.trace.drop 4 == [.poll .low, .poll .high, .poll .low, .poll .high, .poll .low,
      .tx .adc [0x01#8] true [0x00#8, 0x00#8, 0x2A#8]] && responds t .ok (.samples [42#32])) = true := by
  decide +kernel

/-- R89, CONV-1: the differential pairs. -/
theorem test_mux_diff : [(0 : Int), 1, 2, 3].map (muxCode Params.default .diff) =
    [0x01#8, 0x23#8, 0x45#8, 0x67#8] := by decide

/-- CONV-3. -/
theorem test_sample : (rawSample 0xFE#8 0xDC#8 0xBA#8).toInt = -74566 ∧
    (rawSample 0x12#8 0x34#8 0x56#8).toInt = 1193046 := by decide

/-! ### Monitor, codec, DAC -/

/-- PERF-9, PERF-10. -/
theorem test_perf_begin : after (.hostPerfBegin 3#4) { powerOn true [] [] with
    oracle := answers [] [] [50] } (fun t =>
      t.mon == ⟨true, 50, 3750, 0, 0, 0, 0, 0, 0, .noData⟩ && responds t .ok .none) = true := by
  decide +kernel

/-- PERF-6. -/
theorem test_perf_report : after .hostPerfReport { ready [] [] [2000] with
    mon := ⟨true, 0, 100, 4, 1, 4, 4, 1, 1, .poor⟩ } (fun t =>
      responds t .ok (.metrics ⟨0, 4, 1, 100, 2, 1 / 2, 1 / 2, .poor⟩)) = true := by decide +kernel

/-- PERF-4: the record of a scan. -/
theorem test_perf_record : after (.hostScanChannels [0] 1#8) { ready [.low] [0#8, 0#8, 0#8] [500] with
    mon := Mon.begun (5 / 2) 0 } (fun t =>
      t.mon == ⟨true, 0, 5 / 2, 1, 1, 1, 2, 2, 80, .good⟩) = true := by decide +kernel

/-- PERF-8. -/
theorem test_classify : [(85 : Rat), 85 + 1 / 1000, 70, 70 + 1 / 1000, 50, 50 + 1 / 1000].map
    (classify Params.default 1) = [.good, .excellent, .fair, .good, .poor, .fair] := by decide +kernel

/-- CODEC-3. -/
theorem test_voltage : after (.hostRawToVoltage (BitVec.ofInt 32 (-1)) 64 (5 / 2) (-5 / 2))
    (ready [] [] []) (fun t => responds t .ok (.voltage (-5 / 536870912))) = true := by decide +kernel

/-- CODEC-7. -/
theorem test_voltage_refused : after (.hostRawToVoltage 1#32 0 5 0) (powerOn true [] []) (fun t =>
    responds t .badArg .none) = true := by decide +kernel

/-- DAC-2, DAC-7. -/
theorem test_dac_write : after (.hostDacWrite 1 0x8000#16) (readyCont []) (fun t =>
    t.trace == [.tx .dac [0x34#8, 0x80#8, 0x00#8] false []] && t.dacB == some 0x8000#16 &&
      t.dacA == none && responds t .ok .none) = true := by decide +kernel

/-- DAC-5. -/
theorem test_dac_write_invalid : after (.hostDacWrite (-1) 0#16) (ready [] [] []) (fun t =>
    t.trace == [] && t.warnLog == [.dacInvalidChannel (-1)] && responds t .ok .none) = true := by
  decide +kernel

/-! ### The reference chip (R48, R49, R51, R53, R69) -/

/-- Whether a trace from the chip's reset values is the reference chip's. -/
def chipSays (tr : List Event) : Bool := chipConsistent Params.default Chip.afterReset tr

/-- DRDY_N: 0 by a conversion, 1 only by an RDATA, in STATUS[0] as on the line, and still while halted once a
self-calibration of the reset has ended. -/
theorem test_chip_drdy :
    chipSays [.poll .high, .poll .low, .poll .low, .tx .adc [0x01#8] true [0#8, 0#8, 0#8], .poll .high] =
      true ∧
    chipSays [.poll .low, .poll .high] = false ∧
    chipSays [rreg 0x10#8 0x30#8, .poll .high] = false ∧
    chipSays [.poll .low, .tx .adc [0xFC#8] false [], .poll .high, .poll .low] = false ∧
    chipSays [.tx .adc [0xFC#8] false [], .poll .high, .poll .low] = true ∧
    chipSays [.poll .low, .tx .adc [0xFC#8] false [], .poll .high, .tx .adc [0xFC#8] false [], .poll .low] =
      true ∧
    chipSays [.tx .adc [0xFC#8] false [], .poll .high, .tx .adc [0x00#8] false [], .poll .low] = true := by
  decide +kernel

/-- Registers read back what was written but for the read-only bits, a halted chip repeats its code, and a
self-calibration replaces OFC0. -/
theorem test_chip_registers :
    chipSays [wreg 0x50#8 0xFE#8, rreg 0x10#8 0x3F#8] = true ∧
    chipSays [wreg 0x50#8 0xFE#8, rreg 0x10#8 0xFF#8] = false ∧
    chipSays [wreg 0x51#8 0x23#8, rreg 0x11#8 0x01#8] = false ∧
    chipSays [.poll .low, .tx .adc [0xFC#8] false [], .tx .adc [0x01#8] true [1#8, 2#8, 3#8],
      .tx .adc [0x01#8] true [1#8, 2#8, 4#8]] = false ∧
    chipSays [.poll .low, wreg 0x55#8 0x11#8, rreg 0x15#8 0x12#8] = false ∧
    chipSays [wreg 0x55#8 0x11#8, rreg 0x15#8 0x12#8] = true ∧
    chipSays [.poll .low, wreg 0x55#8 0x11#8, .tx .adc [0xF0#8] false [], rreg 0x15#8 0x12#8, .poll .low,
      rreg 0x15#8 0x13#8] = true := by decide +kernel

/-! ### Step -/

/-- Whether a step answers a next state. -/
def steps (s : State) : Bool :=
  match step s with
  | .next _ => true
  | .fault _ => false
  | .refused _ => false

/-- Each row of spec/opcode_table.json runs as the first instruction after reset. -/
theorem test_first_step :
    ([0x01, 0x02, 0x03, 0x10, 0x11, 0x12, 0x20, 0x21, 0x30, 0x31, 0x32, 0x40, 0x50, 0x51, 0x60, 0x00, 0x0F,
      0xF0, 0xFC, 0xFE].all fun w => steps (State.reset.withFetchWord 8 w)) = true ∧
    ([0x10, 0x11, 0x0F].all fun w => steps (State.reset.withFetchWord 16 w)) = true ∧
    ([0x50, 0x30, 0x34].all fun w => steps (State.reset.withFetchWord 24 w)) = true := by
  decide +kernel

/-- CMD-22. -/
theorem test_bad_op : step { ready [] [] [] with reqPort := some (Request.ofTag 0x99#8) } =
    .next { ready [] [] [] with responses := [⟨.badOp, .none⟩] } := by rfl

/-! ### Witnesses: a state and operands that meet a statement's hypotheses, each clause at a boundary -/

theorem wit_decodeEncodeRoundTrip : Params.default.wf = true ∧
    (Instr.hostConfigure 6#3 15#4 1#1).wellFormed Params.default = true ∧
    (Instr.adcWreg 0xA#4 0xFF#8).wellFormed Params.default = true := by decide +kernel

theorem wit_wireFramesAreCanonical : Params.default.wf = true ∧
    decodeWire Params.default (.adc [0x1A#8, 0x00#8]) = .ok (.adcRreg 0xA#4) ∧
    decodeWire Params.default (.dac [0x30#8, 0xFF#8, 0xFF#8]) = .ok (.dacWriteA 0xFFFF#16) :=
  ⟨by decide +kernel, rfl, rfl⟩

theorem wit_neverEmittedFramesAreRejected : Params.default.wf = true ∧
    hiNibble 0x1A#8 = hiNibble Params.default.cmdRreg ∧
    decodeAdc Params.default [0x1A#8, 0x00#8] = .ok (.adcRreg 0xA#4) ∧
    hiNibble 0x50#8 = hiNibble Params.default.cmdWreg ∧
    decodeAdc Params.default [0x50#8, 0x00#8, 0x04#8] = .ok (.adcWreg 0#4 0x04#8) ∧
    decodeDac Params.default [0x34#8, 0x00#8, 0x00#8] = .ok (.dacWriteB 0#16) :=
  ⟨by decide +kernel, rfl, rfl, rfl, rfl, rfl⟩

theorem wit_unknownTagAnswersBadOp :
    (ready [] [] []).wireSlot = none ∧ 0x00#8 ∉ hostTags ∧ 0x61#8 ∉ hostTags ∧
    { ready [] [] [] with reqPort := some (Request.ofTag 0x61#8) }.reqPort =
      some (Request.ofTag 0x61#8) ∧
    (ready [] [] []).reqPort = none ∧
    { ready [] [] [] with hostScript := [Request.ofTag 0x61#8] }.hostScript = Request.ofTag 0x61#8 :: [] :=
  ⟨rfl, by decide, by decide, rfl, rfl, rfl⟩

theorem wit_pseudoOperationsExpand : gainMult 0#3 = some 1 ∧ gainMult 6#3 = some 64 := by decide

theorem wit_stepRunsDecodedInstruction :
    decodeWire (ready [] [] []).par (.adc [0xFC#8]) = .ok .adcSync ∧
    decodeRequest (Request.ofTag 0x60#8) = .ok (.hostRawToVoltage 0#32 0 0 0) ∧
    (ready [] [] []).wireSlot = none ∧ (ready [] [] []).reqPort = none ∧
    (ready [] [] []).hostScript = [] ∧
    { ready [] [] [] with hostScript := [Request.ofTag 0x03#8] }.hostScript = Request.ofTag 0x03#8 :: [] :=
  ⟨rfl, rfl, rfl, rfl, rfl, rfl⟩

/-- The first poll, the last poll within the bound, and the bound; for either level. -/
theorem wit_waitsEndExactly : par.waitMode = .polls ∧ 0 < par.pollLimit ∧ 3 < par.pollLimit ∧
    (ready [.low] [] []).oracle.levels = List.replicate 0 Level.low.other ++ .low :: [] ∧
    (ready [.high, .high, .high, .low] [] []).oracle.levels =
      List.replicate 3 Level.low.other ++ .low :: [] ∧
    (ready [.low, .low, .low, .high] [] []).oracle.levels =
      List.replicate 3 Level.high.other ++ .high :: [] ∧
    (ready [.high, .high, .high, .high, .low] [] []).oracle.levels =
      List.replicate par.pollLimit Level.low.other ++ [.low] := by decide

/-- A READY state that waits by the clock, 2 ticks to the deadline, one short answer before the last. -/
def byClock (levels : List Level) (ticks : List Nat) : State :=
  { ready levels [] ticks with
    par := { par with waitMode := .deadline, deadlineUs := 2000, fairBound := 2 } }

/-- The tick at the deadline, and the last one before it. -/
theorem wit_deadlineWaitReadsTheClock :
    (byClock [.high] [5, 6, 7]).par.waitMode = .deadline ∧
    (byClock [.high] [5, 6, 7]).oracle.ticks = 5 :: ([6] ++ 7 :: []) ∧
    ((byClock [.high] [5, 6, 7]).oracle.lastTick :: 5 :: ([6] ++ [7])).Pairwise (· ≤ ·) ∧
    [6].length < (byClock [.high] [5, 6, 7]).par.fairBound ∧
    ((6 : Nat) : Rat) - (5 : Nat) <
      ((byClock [.high] [5, 6, 7]).par.deadlineUs : Rat) * (byClock [.high] [5, 6, 7]).par.tickHz / 1000000 ∧
    ((byClock [.high] [5, 6, 7]).par.deadlineUs : Rat) * (byClock [.high] [5, 6, 7]).par.tickHz / 1000000 ≤
      ((7 : Nat) : Rat) - (5 : Nat) ∧
    (byClock [.high] [5, 6, 7]).oracle.levels = List.replicate [6].length Level.low.other ++ [] ∧
    (byClock [.high, .low] [5, 6, 6]).oracle.ticks = 5 :: ([6] ++ 6 :: []) ∧
    ((byClock [.high, .low] [5, 6, 6]).oracle.lastTick :: 5 :: ([6] ++ [6])).Pairwise (· ≤ ·) ∧
    (byClock [.high, .low] [5, 6, 6]).oracle.levels =
      List.replicate [6].length Level.low.other ++ .low :: [] :=
  ⟨rfl, rfl, by decide, by decide, by decide +kernel, by decide +kernel, rfl, rfl, by decide, rfl⟩

theorem wit_initOpensResetsIdentifies : (ready [] [] []).hstate = .ready ∧
    (powerOn true [] []).hstate ≠ .ready ∧ (powerOn true [] []).oracle.nextOpen = true ∧
    (powerOn false [] []).oracle.nextOpen = false ∧
    (powerOn true [] [0x3F#8]).oracle.nextByte.extractLsb' 4 4 = (powerOn true [] []).par.chipId ∧
    (powerOn true [] [0x2F#8]).oracle.nextByte.extractLsb' 4 4 ≠ (powerOn true [] []).par.chipId := by
  decide

theorem wit_hostResetPulsesAndRestores : (powerOn true [] []).hstate ≠ .ready ∧
    (readyCont []).hstate = .ready ∧ (readyCont []).lines.held = true := by decide

/-- The greatest gain code that is a gain, and the least. -/
theorem wit_configureWritesThreeRegisters : (ready [] [] []).hstate = .ready ∧
    (ready [] [] []).contMode = false ∧ 6#3 ≠ 7#3 ∧ 0#3 ≠ 7#3 := by decide

theorem wit_scanModeAndConfigReadback : (readyCont []).hstate = .ready ∧
    (powerOn true [] []).hstate ≠ .ready := by decide

theorem wit_dataRateTable : Params.default.wf = true := by decide +kernel

theorem wit_writeCmdIsTheWireCommand : par.wf = true ∧ (ready [] [] []).hstate = .ready ∧
    0x00#8 ∈ par.hostCmds ∧ (ready [] [] []).contMode = false ∧ 0xFE#8 ∈ par.hostCmds ∧
    0xFE#8 = par.cmdReset ∧ 0x0F#8 ∈ par.hostCmds ∧ 0x0F#8 = par.cmdSdatac := by decide +kernel

theorem wit_registerAccessIsOneTransaction : (ready [] [] []).hstate = .ready ∧
    (ready [] [] []).contMode = false ∧ (0xA#4).toNat < (ready [] [] []).par.regCount ∧
    (0x0#4).toNat < (ready [] [] []).par.regCount := by decide

theorem wit_multiplexerBytes : 7 < 8 ∧ 3 < 4 ∧ (muxCode Params.default .se (7 : Nat)).toNat = 0x78 ∧
    (muxCode Params.default .diff (3 : Nat)).toNat = 0x67 := by decide

theorem wit_readChannelAcquiresOnce : (ready [] [] []).hstate = .ready ∧
    (ready [] [] []).contMode = false ∧
    ((ready [] [] []).cfg.scanMode = .se ∧ (0 : Int) ≤ 7 ∧ (7 : Int) < 8) ∧
    ({ ready [] [] [] with cfg := ⟨0#3, 0#4, 0#1, .diff⟩ }.cfg.scanMode = .diff ∧ (0 : Int) ≤ 3 ∧
      (3 : Int) < 4) := by decide

theorem wit_invalidChannelYieldsZero : (ready [] [] []).hstate = .ready ∧
    (ready [] [] []).contMode = false ∧ (-1 : Int) < 0 ∧
    ((ready [] [] []).cfg.scanMode = .se ∧ (8 : Int) ≤ 8) ∧
    ({ ready [] [] [] with cfg := ⟨0#3, 0#4, 0#1, .diff⟩ }.cfg.scanMode = .diff ∧ (4 : Int) ≤ 4) := by
  decide

/-- ScanIsItsAcquisitions, ScanTransactionCounts, EmptyScanDoesNothing, ScanIsRecordedOnce: the longest list
and the greatest count, with its last valid entry and a list without one, both forms of a settling cycle,
with a monitor that records and one that does not. -/
theorem wit_scan : par.wf = true ∧ (ready [] [] []).hstate = .ready ∧
    (ready [] [] []).contMode = false ∧ [0, 1, 2, 3, 4, 5, 6, 7].length ≤ 8 ∧ 255#8 ≠ 0#8 ∧
    ([0, 1, 2, 3, 4, 5, 6, 7] : List Int)[7]? = some 7 ∧
    validCh (ready [] [] []).cfg.scanMode 7 = true ∧ validCh (ready [] [] []).cfg.scanMode 8 = false ∧
    par.settleDiscardRead = true ∧ { par with settleDiscardRead := false }.wf = true ∧
    { ready [] [] [] with mon := Mon.begun 100 0 }.mon.active = true ∧
    (ready [] [] []).mon.active = false ∧ ([0] : List Int) ≠ [] := by decide +kernel

theorem wit_perfReportIsReadOnly : (ready [] [] []).mon.active = false ∧
    { ready [] [] [] with mon := Mon.begun 100 0 }.mon.active = true := ⟨rfl, rfl⟩

theorem wit_classificationIsStrict : Params.default.effExcellent = 85 ∧ Params.default.effGood = 70 ∧
    Params.default.effFair = 50 ∧ classify Params.default 0 100 = .noData ∧
    classify Params.default 1 85 = .good ∧ classify Params.default 1 50 = .poor := by decide +kernel

/-- PERF-7 at k = 1: two samples at tick 10. -/
theorem wit_constantRateHasConstantEfficiency :
    let m : Mon := ⟨true, 0, 100, 2, 1, 2, 0, 0, 0, .poor⟩
    0 < par.tickHz ∧ m.start < 10 ∧ 0 < m.lastN ∧ 0 < m.theo ∧
      (m.samples : Rat) = 200 * (((10 : Nat) - m.start : Rat) / par.tickHz) := by decide +kernel

theorem wit_voltageFormula : 64 ∈ [1, 2, 4, 8, 16, 32, 64] ∧ 1 ∈ [1, 2, 4, 8, 16, 32, 64] ∧
    0 ∉ [1, 2, 4, 8, 16, 32, 64] ∧ 65 ∉ [1, 2, 4, 8, 16, 32, 64] := by decide

theorem wit_dacWriteSendsAndShadows : (powerOn true [] []).hstate ≠ .ready ∧
    (readyCont []).hstate = .ready ∧ (-1 : Int) ≠ 0 ∧ (-1 : Int) ≠ 1 ∧ (2 : Int) ≠ 0 ∧ (2 : Int) ≠ 1 := by
  decide

/-- One request refused by each condition, and one admitted. -/
theorem wit_admissionTable : (Instr.hostReadReg 0xF#4).isHost = true ∧
    refusalOf (ready [] [] []) .hostInit = some .alreadyInit ∧
    refusalOf (powerOn true [] []) (.hostReadReg 0xF#4) = some .notReady ∧
    refusalOf (readyCont []) (.hostReadReg 0xF#4) = some .badArg ∧
    refusalOf (readyCont []) (.hostReadReg 0xA#4) = some .contMode ∧
    refusalOf (ready [] [] []) (.hostReadReg 0xA#4) = none := by decide

/-- A chip-select line of each chip, the clauses' instructions among them. -/
theorem wit_wireCommandsAnswerNothing :
    Instr.adcSync.isHost = false ∧ (∃ t, exec .adcSync (ready [] [] []) = .next t) ∧
    (Instr.dacWriteB 0#16).isHost = false ∧ ∃ t, exec (.dacWriteB 0#16) (ready [] [] []) = .next t :=
  ⟨rfl, ⟨_, rfl⟩, rfl, _, rfl⟩

/-- LifecycleMovesOnlyByInitAndShutdown, RegistersHaveOnlyTheirWriters, MonitorDoesNotInterfere,
UnwrittenRegistersAreNeverRead. -/
theorem wit_exec : ∃ t, exec (.hostDacWrite 0 0#16) (ready [] [] []) = .next t ∧
    t.dacA ≠ (ready [] [] []).dacA := ⟨_, rfl, by decide⟩

/-! ### Invariants of a READY state whose next step runs -/

/-- The READY state with a request on the port. -/
def asking : State := { ready [] [] [] with reqPort := some (Request.ofTag 0x12#8) }

/-- LogsOnlyGrow, and the step of the five StepKeeps statements. -/
theorem wit_step : ∃ t, step asking = .next t := ⟨_, rfl⟩

theorem wit_controlInv : ControlInv asking :=
  ⟨rfl, ⟨fun _ => rfl, fun _ => rfl⟩, fun _ => ⟨rfl, rfl, rfl⟩, fun h => Bool.noConfusion h, by decide,
    rfl, rfl, by decide, rfl, fun _ => by decide⟩

theorem wit_sampleInv : SampleInv asking := by
  refine ⟨by decide, fun i h => absurd h (Nat.not_lt_zero _), fun h => absurd h (by decide), ?_,
    fun _ h => (nomatch h), fun _ h => (nomatch h), by decide⟩
  intro i v h
  have hn : ∀ i : Fin 8, asking.scan.result[i] = none := by decide
  rw [hn i] at h
  exact nomatch h

/-- StepKeepsMonInv and NoSamplesNoEfficiency: a monitor begun at tick 0, with no sample yet. -/
theorem wit_monInv : MonInv { asking with mon := Mon.begun 100 0 } ∧
    { asking with mon := Mon.begun 100 0 }.mon.samples = 0 := by
  refine ⟨⟨fun h => Bool.noConfusion h, by decide, fun _ => ⟨7#4, by decide +kernel⟩, by decide,
    by decide, by decide, by decide, fun _ => ⟨rfl, rfl, rfl⟩, fun h => absurd h (by decide),
    fun h => absurd h (by decide), fun _ => by decide +kernel, by decide +kernel⟩, rfl⟩

theorem wit_logInv : LogInv asking :=
  ⟨by decide +kernel, fun _ h => absurd h (List.not_mem_nil), fun _ h => absurd h (List.not_mem_nil),
    fun _ h => absurd h (List.not_mem_nil)⟩

theorem wit_contInv : ContInv asking := ⟨by decide +kernel, fun _ => rfl⟩

/-- The state of both clauses, its HOST.RESET, a HOST.GET_CONFIG, and HOST.WRITE_REGs that keep the
description: of MUX, of the greatest address, and a refused one. -/
theorem wit_registerFileDescribesChip : ContInv asking ∧ ControlInv asking ∧
    fitsChip asking.par = true ∧
    (∃ t, exec (.hostWriteReg 0x1#4 0x08#8) asking = .next t ∧ t.hstate = .ready) ∧
    (0x1#4 ≠ asking.par.regStatus ∧ 0x1#4 ≠ asking.par.regAdcon ∧ 0x1#4 ≠ asking.par.regDrate) ∧
    (0xA#4 ≠ asking.par.regStatus ∧ 0xA#4 ≠ asking.par.regAdcon ∧ 0xA#4 ≠ asking.par.regDrate) ∧
    refusalOf asking (.hostWriteReg 0xB#4 0x08#8) ≠ none ∧
    (∃ t, exec .hostReset asking = .next t ∧ t.hstate = .ready ∧
      t.responses.getLast?.map (·.status) = some .ok) ∧
    (∃ t, exec .hostGetConfig asking = .next t ∧ t.hstate = .ready) ∧ asking.hstate = .ready ∧
    asking.cfg.describes asking.par (chipAfter asking.par asking.trace) = true := by
  refine ⟨wit_contInv, wit_controlInv, by decide +kernel, ⟨_, rfl, rfl⟩, by decide, by decide, by decide,
    ⟨_, rfl, ?_, ?_⟩, ⟨_, rfl, rfl⟩, rfl, by decide +kernel⟩
  · simp [whenReady, asking, ready]
  · simp [whenReady, asking, ready]

/-- A READY state whose trace shows DRDY_N at 0 and whose next response byte is 0x55. -/
def calibrated : State := { ready [] [0x55#8] [] with trace := [.poll .low] }

/-- The greatest register address, a calibration word. -/
theorem wit_referenceChipReadsBack : ContInv calibrated ∧ calibrated.hstate = .ready ∧
    calibrated.contMode = false ∧ 0xA#4 ∈ calibrated.par.regs ∧ 0xA#4 ∈ calibrated.par.calRegs ∧
    (chipAfter calibrated.par calibrated.trace).calibrating = false ∧
    ∃ t u, exec (.hostWriteReg 0xA#4 0x55#8) calibrated = .next t ∧
      exec (.hostReadReg 0xA#4) t = .next u ∧ u.responses.getLast? = some ⟨.ok, .value 0x55#8⟩ ∧
      u.trace = calibrated.trace ++ [wreg 0x5A#8 0x55#8, rreg 0x1A#8 0x55#8] ∧
      chipConsistent par (chipAfter par calibrated.trace) [wreg 0x5A#8 0x55#8, rreg 0x1A#8 0x55#8] = true :=
  ⟨⟨by decide +kernel, fun _ => rfl⟩, rfl, rfl, by decide, by decide, by decide, _, _, rfl, rfl, rfl,
    by decide +kernel, by decide +kernel⟩

end Sys2Proof.Tests
end

section
/-! SUPPORT. Proofs of the statements of spec/00_scope.md: where a step finds its instruction, what no step
takes back, what a wire command leaves alone, the deadline wait, and the default bytes. -/

namespace Sys2Proof.Machine

/-! ### Where a step finds its instruction (R78, R82, R194) -/

/-- R82: every tag of R80 spells an operation. -/
theorem decodeRequest_of_mem {r : Request} (h : r.op ∈ hostTags) : ∃ i, decodeRequest r = .ok i := by
  simp only [hostTags, List.mem_cons, List.not_mem_nil, or_false] at h
  rcases h with h | h | h | h | h | h | h | h | h | h | h | h | h | h | h <;>
    simp [decodeRequest, h]

/-- R82: any other tag spells none. -/
theorem decodeRequest_of_not_mem {r : Request} (h : r.op ∉ hostTags) :
    decodeRequest r = .error (.badOp r.op) := by
  simp only [hostTags, List.mem_cons, List.not_mem_nil, or_false, BitVec.toNat_eq, not_or] at h
  unfold decodeRequest
  split <;> simp_all

theorem decodeRequest_ok_iff (r : Request) : (∃ i, decodeRequest r = .ok i) ↔ r.op ∈ hostTags := by
  refine ⟨fun ⟨i, hi⟩ => ?_, decodeRequest_of_mem⟩
  by_contra h
  simp [decodeRequest_of_not_mem h] at hi

theorem accept_of_port {s : State} {r : Request} (h : s.reqPort = some r) : s.accept = s := by
  simp [State.accept, h]

theorem accept_of_script {s : State} {r : Request} {rest : List Request} (hp : s.reqPort = none)
    (hs : s.hostScript = r :: rest) :
    s.accept = { s with reqPort := some r, hostScript := rest } := by
  simp [State.accept, hp, hs]

theorem accept_of_empty {s : State} (hs : s.hostScript = []) : s.accept = s := by
  simp [State.accept, hs]

theorem step_of_wire {s : State} {f : WireFrame} {i : Instr} (hw : s.wireSlot = some f)
    (hi : decodeWire s.par f = .ok i) : step s = exec i s.clearWire := by
  simp [step, hw, hi]

theorem step_of_request {s : State} {r : Request} {i : Instr} (hw : s.wireSlot = none)
    (hr : s.accept.reqPort = some r) (hi : decodeRequest r = .ok i) :
    step s = exec i s.accept.consume := by
  simp [step, hw, hr, hi]

theorem step_of_badOp {s : State} {r : Request} (hw : s.wireSlot = none)
    (hr : s.accept.reqPort = some r) (h : r.op ∉ hostTags) :
    step s = .next (s.accept.consume.refuse .badOp) := by
  simp [step, hw, hr, decodeRequest_of_not_mem h]

theorem step_of_empty {s : State} (hw : s.wireSlot = none) (hr : s.accept.reqPort = none) :
    step s = .next s.accept := by
  simp [step, hw, hr]

/-- Everything a step that goes on can have done. -/
theorem step_next_cases {s t : State} (h : step s = .next t) :
    (∃ i, exec i s.clearWire = .next t) ∨ (∃ i, exec i s.accept.consume = .next t) ∨
      t = s.accept.consume.refuse .badOp ∨ t = s.accept := by
  unfold step at h
  split at h
  · split at h
    · next i _ => exact .inl ⟨i, h⟩
    · cases h
  · split at h
    · cases h; exact .inr (.inr (.inr rfl))
    · split at h
      · next i _ => exact .inr (.inl ⟨i, h⟩)
      · cases h; exact .inr (.inr (.inl rfl))

/-- Settles O5: the decoder's tags, then the step from the port and from the script. -/
theorem unknownTagAnswersBadOp : Obligations.UnknownTagAnswersBadOp := by
  unfold Obligations.UnknownTagAnswersBadOp
  refine ⟨decodeRequest_ok_iff, fun s r hw hp hr => ?_, fun s r rest hw hp hs hr => ?_⟩
  · have ha := accept_of_port hp
    rw [step_of_badOp hw (by rw [ha, hp]) hr, ha]
    rfl
  · have ha := accept_of_script hp hs
    rw [step_of_badOp hw (by rw [ha]) hr, ha]
    rfl

/-- Settles O7: the wire slot, the port, the script, and nothing to do. -/
theorem stepRunsDecodedInstruction : Obligations.StepRunsDecodedInstruction := by
  unfold Obligations.StepRunsDecodedInstruction
  refine ⟨fun s f i => step_of_wire, fun s r i hw hp hi => ?_, fun s r rest i hw hp hs hi => ?_,
    fun s hw hp hs => ?_⟩
  · have ha := accept_of_port hp
    rw [step_of_request hw (by rw [ha, hp]) hi, ha]
    rfl
  · have ha := accept_of_script hp hs
    rw [step_of_request hw (by rw [ha]) hi, ha]
    rfl
  · have ha := accept_of_empty hs
    rw [step_of_empty hw (by rw [ha, hp]), ha]

/-! ### What no step takes back (R17, R46, R47) -/

/-- The parameters are the same, the three logs are longer or the same, and the clock has not fallen. -/
structure Grows (s t : State) : Prop where
  par : t.par = s.par
  trace : s.trace <+: t.trace
  warnLog : s.warnLog <+: t.warnLog
  responses : s.responses <+: t.responses
  clock : s.oracle.lastTick ≤ t.oracle.lastTick

namespace Grows

variable {s t u : State}

theorem refl (s : State) : Grows s s := ⟨rfl, List.prefix_rfl, List.prefix_rfl, List.prefix_rfl, le_rfl⟩

theorem trans (h : Grows s t) (h' : Grows t u) : Grows s u :=
  ⟨h'.par.trans h.par, h.trace.trans h'.trace, h.warnLog.trans h'.warnLog,
    h.responses.trans h'.responses, h.clock.trans h'.clock⟩

theorem emit (h : Grows s t) (e : Event) : Grows s (t.emit e) :=
  h.trans ⟨rfl, List.prefix_append .., List.prefix_rfl, List.prefix_rfl, le_rfl⟩

theorem warn (h : Grows s t) (w : Warning) : Grows s (t.warn w) :=
  h.trans ⟨rfl, List.prefix_rfl, List.prefix_append .., List.prefix_rfl, le_rfl⟩

theorem respond (h : Grows s t) (st : Status) (pl : Payload) : Grows s (t.respond st pl) :=
  h.trans ⟨rfl, List.prefix_rfl, List.prefix_rfl, List.prefix_append .., le_rfl⟩

theorem refuse (h : Grows s t) (e : Status) : Grows s (t.refuse e) := h.respond e .none

/-- What writes neither a log nor the clock nor the parameters. -/
theorem quiet (h : Grows s t) (hp : u.par = t.par) (ht : u.trace = t.trace) (hw : u.warnLog = t.warnLog)
    (hr : u.responses = t.responses) (ho : u.oracle = t.oracle) : Grows s u :=
  h.trans ⟨hp, ht ▸ List.prefix_rfl, hw ▸ List.prefix_rfl, hr ▸ List.prefix_rfl, ho ▸ le_rfl⟩

theorem setHState (h : Grows s t) (x : HState) : Grows s (t.setHState x) := h.quiet rfl rfl rfl rfl rfl
theorem setCfg (h : Grows s t) (c : Cfg) : Grows s (t.setCfg c) := h.quiet rfl rfl rfl rfl rfl
theorem setAcq (h : Grows s t) (a : Acq) : Grows s (t.setAcq a) := h.quiet rfl rfl rfl rfl rfl
theorem setContMode (h : Grows s t) (b : Bool) : Grows s (t.setContMode b) := h.quiet rfl rfl rfl rfl rfl
theorem setMon (h : Grows s t) (m : Mon) : Grows s (t.setMon m) := h.quiet rfl rfl rfl rfl rfl
theorem setLines (h : Grows s t) (ls : Lines) : Grows s (t.setLines ls) := h.quiet rfl rfl rfl rfl rfl

theorem setDac (h : Grows s t) (ch : DacChannel) (c : DacCode) : Grows s (t.setDac ch c) :=
  h.quiet (by simp) (by simp) (by simp) (by simp) (by simp)

theorem now (h : Grows s t) : Grows s (now t).2 :=
  h.trans ⟨rfl, List.prefix_rfl, List.prefix_rfl, List.prefix_rfl, t.oracle.lastTick_le_nextTick 0⟩

theorem of_appends {a : Acq} {evs : List Event} {ws : List Warning} (h : Appends t u a evs ws)
    (hs : Grows s t) : Grows s u := by
  obtain ⟨o, ls, rfl, -, ho, -⟩ := h
  exact hs.trans ⟨rfl, List.prefix_append .., List.prefix_append .., List.prefix_rfl, ho⟩

/-! #### The shared operations -/

theorem sendCmd (h : Grows s t) (c : Byte) : Grows s (sendCmd c t) := h.of_appends (appends_sendCmd c t)

theorem wReg1 (h : Grows s t) (a : RegAddr) (v : Byte) : Grows s (wReg1 a v t) :=
  h.of_appends (appends_wReg1 a v t)

theorem rReg1 (h : Grows s t) (a : RegAddr) : Grows s (rReg1 a t).2 := by
  rw [rReg1_state]
  exact h.trans ⟨rfl, List.prefix_append .., List.prefix_rfl, List.prefix_rfl, le_rfl⟩

theorem rData (h : Grows s t) : Grows s (rData t).2 := by
  obtain ⟨_, _, _, -, ha⟩ := appends_rData t
  exact h.of_appends ha

theorem dacFrame (h : Grows s t) (ch : DacChannel) (c : DacCode) : Grows s (dacFrame ch c t) := by
  rw [dacFrame_state]
  exact h.trans ⟨rfl, List.prefix_append .., List.prefix_rfl, List.prefix_rfl, le_rfl⟩

theorem waitReady (h : Grows s t) (site : Site) : Grows s (waitReady site t) := by
  obtain ⟨_, _, _, ha, -⟩ := appends_waitFor .low site t
  exact h.of_appends ha

theorem resetPulse (h : Grows s t) : Grows s (resetPulse t) :=
  ((((h.setLines _).emit _).emit _ |>.setLines _).emit _ |>.emit _ |>.setLines _).emit _

theorem release (h : Grows s t) : Grows s (release t) := (h.emit .closed).setLines Lines.released

theorem openTransport (h : Grows s t) : Grows s (openTransport t).2 :=
  h.trans ⟨rfl, List.prefix_append .., List.prefix_rfl, List.prefix_rfl, le_rfl⟩

theorem identify (h : Grows s t) : Grows s (identify t).2 :=
  (((h.setLines _).resetPulse).waitReady .init).rReg1 _

theorem acquire (h : Grows s t) {n : Byte} (hn : n ≠ 0#8) (op : AcqOp) (slot : Nat) (ch : Int) :
    Grows s (acquire op slot ch n t).2 := by
  obtain ⟨_, _, _, ha, -⟩ := acquire_spec hn op slot ch t
  exact h.of_appends ha

theorem deriveNow (h : Grows s t) : Grows s (deriveNow t) := h.now.setMon _

theorem scanRun (h : Grows s t) {n : Byte} (hn : n ≠ 0#8) {l : List Int} (hl : l.length ≤ 8) :
    Grows s (scanRun l n t) := by
  obtain ⟨_, _, _, _, _, _, _, _, ht, -, ho, -⟩ := scanRun_spec hn hl t
  rw [ht]
  exact h.trans ⟨rfl, List.prefix_append .., List.prefix_append .., List.prefix_rfl, ho⟩

theorem runCmd (h : Grows s t) (c : Byte) : Grows s (runCmd c t) := by
  unfold Machine.runCmd
  split_ifs
  · exact h.sendCmd _
  · exact h.sendCmd _
  · exact (h.sendCmd _).waitReady _
  · exact (h.sendCmd _).setContMode _
  · exact (h.sendCmd _).setContMode _
  · exact (((h.sendCmd _).setContMode _).setCfg _).waitReady _
  · exact h

/-! #### Admission: a refused request only answers -/

theorem whenReady {body : State → State} (h : ∀ s, Grows s (body s)) (s : State) :
    Grows s (whenReady s body) := by
  unfold Machine.whenReady
  split
  · exact h s
  · exact (refl s).refuse _

theorem whenLegal {body : State → State} (ok : Bool) (h : ∀ s, Grows s (body s)) (s : State) :
    Grows s (whenLegal ok s body) := by
  cases ok
  · exact (refl s).refuse _
  · exact h s

theorem whenNotCont {body : State → State} (h : ∀ s, Grows s (body s)) (s : State) :
    Grows s (whenNotCont s body) := by
  unfold Machine.whenNotCont
  split
  · exact (refl s).refuse _
  · exact h s

theorem initRun (s : State) : Grows s (initRun s) := by
  have ho := (refl s).openTransport
  unfold Machine.initRun
  dsimp only
  split_ifs
  · exact ((((ho.identify.setContMode _).setAcq _).setCfg _).setHState _).respond _ _
  · exact (ho.identify.release.setHState _).respond _ _
  · exact (ho.setHState _).respond _ _

theorem configureBus (h : Grows s t) (g : GainCode) (d : RateIndex) (b : BitVec 1) :
    Grows s (configureBus g d b t) :=
  ((((h.waitReady _).wReg1 _ _).wReg1 _ _).wReg1 _ _).waitReady _

theorem execHostDacWrite (ch : Int) (c : DacCode) {s t : State}
    (h : execHostDacWrite ch c s = .next t) : Grows s t := by
  cases h
  refine whenReady (fun s => ?_) s
  split
  · exact (((refl s).dacFrame _ c).setDac _ c).respond _ _
  · exact ((refl s).warn _).respond _ _

theorem execHostWriteCmd (c : Byte) {s t : State} (h : execHostWriteCmd c s = .next t) :
    Grows s t := by
  cases h
  refine whenReady (fun s => whenLegal _ (fun s => ?_) s) s
  split
  · exact ((refl s).runCmd c).respond _ _
  · exact whenNotCont (fun s => ((refl s).runCmd c).respond _ _) s

theorem execHostScanChannels (l : List Int) (n : Byte) {s t : State}
    (h : execHostScanChannels l n s = .next t) : Grows s t := by
  unfold Machine.execHostScanChannels at h
  split_ifs at h with _ hl hn
  · cases h; exact (refl s).refuse _
  · cases h; exact (refl s).refuse _
  · cases h; exact (refl s).refuse _
  · cases h; exact (refl s).refuse _
  · unfold scanRespond at h
    split at h
    · cases h; exact ((refl s).scanRun hn (not_lt.1 hl)).respond _ _
    · cases h

/-- Whatever an instruction does, it takes nothing back. -/
theorem exec {i : Instr} {s t : State} (h : exec i s = .next t) : Grows s t := by
  have hs := refl s
  cases i with
  | hostInit =>
    cases h
    split
    · exact hs.refuse _
    · exact initRun s
  | hostReset =>
    cases h
    exact whenReady (fun s =>
      (((((refl s).resetPulse).setContMode _).setCfg _).waitReady _).respond _ _) s
  | hostShutdown =>
    cases h
    split
    · exact (hs.release.setHState _).respond _ _
    · exact (hs.setHState _).respond _ _
  | hostConfigure g d b =>
    cases h
    exact whenReady (whenLegal _ (whenNotCont fun s =>
      (((refl s).configureBus g d b).setCfg _).respond _ _)) s
  | hostSetScanMode m => cases h; exact whenReady (fun s => ((refl s).setCfg _).respond _ _) s
  | hostGetConfig => cases h; exact whenReady (fun s => (refl s).respond _ _) s
  | hostReadChannel ch =>
    cases h
    exact whenReady (whenNotCont fun s => ((refl s).acquire (by decide) _ _ _).respond _ _) s
  | hostScanChannels l n => exact execHostScanChannels l n h
  | hostWriteCmd c => exact execHostWriteCmd c h
  | hostWriteReg a v =>
    cases h
    exact whenReady (fun s => whenLegal _ (whenNotCont fun s => ((refl s).wReg1 a v).respond _ _) s) s
  | hostReadReg a =>
    cases h
    exact whenReady (fun s => whenLegal _ (whenNotCont fun s => ((refl s).rReg1 a).respond _ _) s) s
  | hostDacWrite ch c => exact execHostDacWrite ch c h
  | hostPerfBegin d => cases h; exact (hs.now.setMon _).respond _ _
  | hostPerfReport =>
    cases h
    refine Grows.respond ?_ _ _
    unfold refreshed
    split
    · exact hs.deriveNow
    · exact hs
  | hostRawToVoltage c g vp vn => cases h; exact whenLegal _ (fun s => (refl s).respond _ _) s
  | adcWakeup => cases h; exact hs.sendCmd _
  | adcRdata => cases h; exact hs.rData
  | adcRdatac => cases h; exact (hs.sendCmd _).setContMode _
  | adcSdatac => cases h; exact (hs.sendCmd _).setContMode _
  | adcRreg a => cases h; exact hs.rReg1 a
  | adcWreg a v => cases h; exact hs.wReg1 a v
  | adcSelfcal => cases h; exact (hs.sendCmd _).waitReady _
  | adcSync => cases h; exact hs.sendCmd _
  | adcReset => cases h; exact (((hs.sendCmd _).setContMode _).setCfg _).waitReady _
  | dacWriteA c => cases h; exact hs.dacFrame .a c
  | dacWriteB c => cases h; exact hs.dacFrame .b c

theorem clearWire (s : State) : Grows s s.clearWire := (refl s).quiet rfl rfl rfl rfl rfl

theorem accept (s : State) : Grows s s.accept := by
  unfold State.accept
  split
  · exact (refl s).quiet rfl rfl rfl rfl rfl
  · exact refl s

theorem consume (h : Grows s t) : Grows s t.consume := h.quiet rfl rfl rfl rfl rfl

theorem step {s t : State} (h : step s = .next t) : Grows s t := by
  rcases step_next_cases h with ⟨i, hi⟩ | ⟨i, hi⟩ | rfl | rfl
  · exact (clearWire s).trans (exec hi)
  · exact (accept s).consume.trans (exec hi)
  · exact (accept s).consume.refuse _
  · exact accept s

end Grows

/-- Settles O42: every step grows the logs. -/
theorem logsOnlyGrow : Obligations.LogsOnlyGrow := by
  unfold Obligations.LogsOnlyGrow
  intro s t h
  obtain ⟨hpar, htrace, hwarn, hresp, hclock⟩ := Grows.step h
  exact ⟨hpar, htrace, hwarn, hresp, hclock⟩

/-! ### What a wire command leaves alone (R14, R15) -/

@[simp] theorem Lines.setCsAdc_drive (ls : Lines) (l : Level) :
    { ls with csAdc := (ls.drive .adc l).csAdc } = ls.drive .adc l :=
  (ls.drive_adc_eq l).symm

@[simp] theorem Lines.setCsDac_drive (ls : Lines) (l : Level) :
    { ls with csDac := (ls.drive .dac l).csDac } = ls.drive .dac l :=
  (ls.drive_dac_eq l).symm

/-- R103: what SELFCAL leaves changed. -/
theorem selfcalCmd_state (s : State) : ∃ k evs ws o, selfcalCmd s = { s with
    acq := { s.acq with pollCnt := k }, lines := s.lines.drive .adc .high
    trace := s.trace ++ evs, warnLog := s.warnLog ++ ws, oracle := o } := by
  obtain ⟨k, evs, ws, o, h, -⟩ := waitReady_spec .selfcal (sendCmd s.par.cmdSelfcal s)
  exact ⟨k, cmdEvent s.par.cmdSelfcal :: evs, ws, o, by rw [selfcalCmd, h]; simp [sendCmd_state]⟩

/-- R105: what RESET leaves changed. -/
theorem resetCmd_state (s : State) : ∃ k evs ws o, resetCmd s = { s with
    cfg := { s.cfg with gain := 0#3, drate := 0#4, bufen := 0#1 }, contMode := false
    acq := { s.acq with pollCnt := k }, lines := s.lines.drive .adc .high
    trace := s.trace ++ evs, warnLog := s.warnLog ++ ws, oracle := o } := by
  obtain ⟨k, evs, ws, o, h, -⟩ :=
    waitReady_spec .reset ((sendCmd s.par.cmdReset s).setContMode false).loadDefaults
  exact ⟨k, cmdEvent s.par.cmdReset :: evs, ws, o, by rw [resetCmd, h]; simp [sendCmd_state]⟩

/-- Settles O39: each command's own next state. -/
theorem wireCommandsAnswerNothing : Obligations.WireCommandsAnswerNothing := by
  unfold Obligations.WireCommandsAnswerNothing
  intro s t i hw h
  cases i with
  | adcWakeup => cases h; simp [wakeupCmd, sendCmd_state]
  | adcRdata => cases h; simp [rData_exact]
  | adcRdatac => cases h; simp [rdatacCmd, sendCmd_state, State.setContMode]
  | adcSdatac => cases h; simp [sdatacCmd, sendCmd_state, State.setContMode]
  | adcRreg a => cases h; simp [rReg1_state]
  | adcWreg a v => cases h; simp [wReg1_state]
  | adcSelfcal =>
    cases h
    obtain ⟨k, evs, ws, o, e⟩ := selfcalCmd_state s
    simp [e]
  | adcSync => cases h; simp [syncCmd, sendCmd_state]
  | adcReset =>
    cases h
    obtain ⟨k, evs, ws, o, e⟩ := resetCmd_state s
    simp [e]
  | dacWriteA c => cases h; simp [dacFrame_state]
  | dacWriteB c => cases h; simp [dacFrame_state]
  | _ => cases hw -- the host operations

/-! ### The deadline wait (R117) -/

/-- R117's test, on the rationals of its formula. -/
theorem deadlinePassed_iff {p : Params} {t0 t : Nat} (h : t0 ≤ t) :
    deadlinePassed p t0 t = true ↔ (p.deadlineUs : Rat) * p.tickHz / 1000000 ≤ (t : Rat) - t0 := by
  rw [deadlinePassed, decide_eq_true_iff, div_le_iff₀ (by norm_num), ← Nat.cast_sub h]
  exact_mod_cast Iff.rfl

/-- R17: a clock answer the outside has ready, no earlier than the last, as a record update. -/
theorem now_of_ready {s : State} {t : Nat} {ts : List Nat} (ht : s.oracle.ticks = t :: ts)
    (h : s.oracle.lastTick ≤ t) : now s = (t, { s with oracle := { s.oracle with
      ticks := ts, ticksDrawn := s.oracle.ticksDrawn + 1, lastTick := t } }) := by
  simp [now, nowAtLeast, Oracle.nextTick, Oracle.dropTick, State.setOracle, ht, h]

/-- R16: a poll whose level the outside has ready, as a record update. -/
theorem pollDrdy_of_ready {s : State} {l : Level} {ls : List Level} (hl : s.oracle.levels = l :: ls) :
    pollDrdy s = (l, { s with
      trace := s.trace ++ [.poll l]
      oracle := { s.oracle with levels := ls, levelsDrawn := s.oracle.levelsDrawn + 1 } }) := by
  simp [pollDrdy, Oracle.nextLevel, Oracle.dropLevel, State.setOracle, State.emit, hl]

theorem Level.other_ne (l : Level) : l.other ≠ l := by cases l <;> decide

/-- The state after k turns of a deadline wait that polled level `l`, the last clock answer being `t`; `ts`
and `ls` are the answers left. -/
def State.turned (s : State) (l : Level) (k t : Nat) (ts : List Nat) (ls : List Level) : State :=
  { s with
    acq := { s.acq with pollCnt := s.acq.pollCnt + k }
    trace := s.trace ++ List.replicate k (.poll l)
    oracle := { s.oracle with
      ticks := ts, ticksDrawn := s.oracle.ticksDrawn + k, lastTick := t
      levels := ls, levelsDrawn := s.oracle.levelsDrawn + k } }

/-- The state in which a deadline wait begins its loop: the count is 0 and the clock has answered t0. -/
def State.begun (s : State) (t0 : Nat) (ts : List Nat) : State :=
  { s with
    acq := { s.acq with pollCnt := 0 }
    oracle := { s.oracle with ticks := ts, ticksDrawn := s.oracle.ticksDrawn + 1, lastTick := t0 } }

theorem State.turned_turned (s : State) (l : Level) (j k t t' : Nat) (ts ts' : List Nat)
    (ls ls' : List Level) :
    (s.turned l j t ts ls).turned l k t' ts' ls' = s.turned l (j + k) t' ts' ls' := by
  simp [State.turned, Nat.add_assoc]

section
variable {s : State} {want : Level} {site : Site} {t0 t n : Nat} {ts : List Nat} {ls : List Level}

/-- The clock answer reaches the deadline: the wait times out. -/
theorem deadlineLoop_passed (ht : s.oracle.ticks = t :: ts) (hc : s.oracle.lastTick ≤ t)
    (hd : deadlinePassed s.par t0 t = true) :
    deadlineLoop want site t0 (n + 1) s = timeOut want site (now s).2 := by
  simp [deadlineLoop, now_of_ready ht hc, hd]

/-- The clock answer falls short and the poll finds the level: the wait is over. -/
theorem deadlineLoop_found (ht : s.oracle.ticks = t :: ts) (hc : s.oracle.lastTick ≤ t)
    (hd : deadlinePassed s.par t0 t = false) (hl : s.oracle.levels = want :: ls) :
    deadlineLoop want site t0 (n + 1) s = (.ready, (pollDrdy (now s).2).2) := by
  have hp := pollDrdy_of_ready (s := (now s).2) hl
  rw [deadlineLoop, hp, now_of_ready ht hc]
  simp [hd]

/-- The clock answer falls short and the poll finds the other level: the wait goes on. -/
theorem deadlineLoop_again (ht : s.oracle.ticks = t :: ts) (hc : s.oracle.lastTick ≤ t)
    (hd : deadlinePassed s.par t0 t = false) (hl : s.oracle.levels = want.other :: ls) :
    deadlineLoop want site t0 (n + 1) s =
      deadlineLoop want site t0 n (s.turned want.other 1 t ts ls) := by
  have hp := pollDrdy_of_ready (s := (now s).2) hl
  rw [deadlineLoop, hp, now_of_ready ht hc]
  simp [hd, Level.other_ne, State.turned, State.countPoll, State.setAcq]

end

/-- A deadline wait over clock answers that all fall short, each followed by a poll of the other level. -/
theorem deadlineLoop_short {want : Level} {site : Site} {t0 n : Nat} {short ts : List Nat}
    {ls : List Level} {s : State} (ht : s.oracle.ticks = short ++ ts)
    (hc : (s.oracle.lastTick :: short).Pairwise (· ≤ ·))
    (hd : ∀ u ∈ short, deadlinePassed s.par t0 u = false)
    (hl : s.oracle.levels = List.replicate short.length want.other ++ ls) :
    deadlineLoop want site t0 (short.length + n) s = deadlineLoop want site t0 n
      (s.turned want.other short.length (short.getLastD s.oracle.lastTick) ts ls) := by
  induction short generalizing s with
  | nil =>
    obtain rfl : s.oracle.ticks = ts := ht
    obtain rfl : s.oracle.levels = ls := hl
    simp [State.turned]
  | cons u us ih =>
    obtain ⟨hu, hus⟩ := List.pairwise_cons.1 hc
    calc deadlineLoop want site t0 ((u :: us).length + n) s
      _ = deadlineLoop want site t0 (us.length + n + 1) s := by rw [List.length_cons, Nat.add_right_comm]
      _ = deadlineLoop want site t0 (us.length + n) (s.turned want.other 1 u (us ++ ts)
            (List.replicate us.length want.other ++ ls)) :=
          deadlineLoop_again ht (hu u List.mem_cons_self) (hd u List.mem_cons_self) hl
      _ = _ := by
          rw [ih (s := s.turned ..) rfl hus (fun v hv => hd v (List.mem_cons_of_mem _ hv)) rfl,
            State.turned_turned, Nat.add_comm 1, List.getLastD_cons]
          rfl

/-- R117: a wait begun at clock answer t0, once the answers that fall short are taken. -/
theorem waitFor_short {s : State} {want : Level} {site : Site} {t0 n : Nat} {short ts : List Nat}
    {ls : List Level} (hm : s.par.waitMode = .deadline) (ht : s.oracle.ticks = t0 :: (short ++ ts))
    (hc : (s.oracle.lastTick :: t0 :: short).Pairwise (· ≤ ·))
    (hn : s.par.fairBound = short.length + n)
    (hd : ∀ u ∈ short, deadlinePassed s.par t0 u = false)
    (hl : s.oracle.levels = List.replicate short.length want.other ++ ls) :
    waitFor want site s = deadlineLoop want site t0 n
      ((s.begun t0 (short ++ ts)).turned want.other short.length (short.getLastD t0) ts ls) := by
  obtain ⟨h0, hs⟩ := List.pairwise_cons.1 hc
  have hbegin : waitFor want site s =
      deadlineLoop want site t0 (short.length + n) (s.begun t0 (short ++ ts)) := by
    have hnow := now_of_ready (s := s.setAcq { s.acq with pollCnt := 0 }) ht (h0 t0 List.mem_cons_self)
    simp only [waitFor, hm, hnow, hn]
    rfl
  exact hbegin.trans (deadlineLoop_short (s := s.begun ..) rfl hs hd hl)

/-- Settles O14: the short answers are taken one by one, then the last answer decides. -/
theorem deadlineWaitReadsTheClock : Obligations.DeadlineWaitReadsTheClock := by
  unfold Obligations.DeadlineWaitReadsTheClock
  intro s want site t0 t short rest more hm ht hc hb hshort
  obtain ⟨n, hn⟩ : ∃ n, s.par.fairBound = short.length + (n + 1) :=
    ⟨s.par.fairBound - short.length - 1, by omega⟩
  obtain ⟨hc', -, hlast⟩ : (s.oracle.lastTick :: t0 :: short).Pairwise (· ≤ ·) ∧ _ ∧ _ :=
    List.pairwise_append.1 hc
  have ht0 : t0 ≤ t := hlast t0 (by simp) t (by simp)
  have hlastD : short.getLastD t0 ≤ t :=
    hlast _ (List.mem_cons_of_mem _ (List.getLastD_mem_cons ..)) t (by simp)
  have hd : ∀ u ∈ short, deadlinePassed s.par t0 u = false := fun u hu => by
    have hu0 : t0 ≤ u := (List.pairwise_cons.1 (List.pairwise_cons.1 hc').2).1 u hu
    rw [Bool.eq_false_iff, Ne, deadlinePassed_iff hu0, not_le]
    exact hshort u hu
  refine ⟨fun hpass hl => ?_, fun hfail hl => ?_⟩
  · have hp : deadlinePassed s.par t0 t = true := (deadlinePassed_iff ht0).2 hpass
    refine (waitFor_short hm ht hc' hn hd hl).trans
      (Eq.trans (deadlineLoop_passed rfl hlastD hp) ?_)
    rw [now_of_ready rfl hlastD]
    simp [timeOut, State.warn, State.turned, State.begun]
    omega
  · have hf : deadlinePassed s.par t0 t = false := by
      rwa [Bool.eq_false_iff, Ne, deadlinePassed_iff ht0, not_le]
    refine (waitFor_short hm ht hc' hn hd hl).trans
      (Eq.trans (deadlineLoop_found rfl hlastD hf rfl) ?_)
    rw [now_of_ready rfl hlastD, pollDrdy_of_ready rfl]
    simp [State.turned, State.begun]
    omega

/-! ### Bytes and parameters by default (R8, R89, R91, R92) -/

/-- R89: the index in the high nibble. -/
theorem muxSeDefault_toNat : ∀ c : Fin 8, (muxSeDefault.get c).toNat = c.val <<< 4 := by decide

theorem muxDiffDefault_toNat :
    ∀ c : Fin 4, (muxDiffDefault.get c).toNat = 2 * c.val * 16 + (2 * c.val + 1) := by decide

/-- R89: a single-ended byte in the chip's layout, for any code of the common input. -/
theorem muxCode_se_toNat {p : Params} (hm : p.muxSe = muxSeDefault) (hn : p.nselLsb = 0) {c : Nat}
    (hc : c < 8) : (muxCode p .se c).toNat = c * 16 + p.aincomCode.toNat := by
  have ha : p.aincomCode.toNat < 2 ^ 4 := p.aincomCode.isLt
  have hf : (aincomField p).toNat = p.aincomCode.toNat := by simp [aincomField, hn]; omega
  rw [muxCode, BitVec.toNat_or, hf, hm, muxSeDefault_toNat]
  simp only [Fin.ofNat, Int.toNat_natCast, Nat.mod_eq_of_lt hc]
  rw [← Nat.shiftLeft_add_eq_or_of_lt ha, Nat.shiftLeft_eq]

/-- R89: a pair's byte in the chip's layout. -/
theorem muxCode_diff_toNat {p : Params} (hm : p.muxDiff = muxDiffDefault) {c : Nat} (hc : c < 4) :
    (muxCode p .diff c).toNat = 2 * c * 16 + (2 * c + 1) := by
  rw [muxCode, hm, muxDiffDefault_toNat]
  simp only [Fin.ofNat, Int.toNat_natCast, Nat.mod_eq_of_lt hc]

/-- Settles O24. -/
theorem multiplexerBytes : Obligations.MultiplexerBytes := by
  unfold Obligations.MultiplexerBytes
  intro q a c p
  exact ⟨fun hc => ⟨muxCode_se_toNat rfl rfl hc, muxCode_se_toNat rfl rfl hc⟩,
    fun hc => ⟨muxCode_diff_toNat rfl hc, muxCode_diff_toNat rfl hc⟩⟩

theorem statusByte_default : ∀ b : BitVec 1,
    statusByte Params.default b = 0x04#8 ||| (b.zeroExtend 8 <<< 1) := by decide

theorem adconByte_default : ∀ g : GainCode, adconByte Params.default g = g.zeroExtend 8 := by decide

/-- R91: bits 7:4. -/
theorem chipIdOf_default (v : Byte) : (chipIdOf Params.default v).toNat = v.toNat / 16 := by
  have hv := v.isLt
  have hid : Params.default.idLsb = 4 := rfl
  rw [chipIdOf, hid, BitVec.extractLsb'_toNat, Nat.shiftRight_eq_div_pow]
  omega

/-- Settles O53. -/
theorem configurationBytes : Obligations.ConfigurationBytes := by
  unfold Obligations.ConfigurationBytes
  exact fun b g v => ⟨statusByte_default b, adconByte_default g, by decide, chipIdOf_default v, by decide⟩

/-- R8, R17: the defaults are a sound record, whatever the clock's rate. -/
theorem Params.default_wf : Params.default.wf = true := by decide

/-- Settles O55. -/
theorem parameterDefaults : Obligations.ParameterDefaults := by
  unfold Obligations.ParameterDefaults
  exact ⟨by decide, by decide, by decide, ⟨by norm_num [State.reset, Params.default], rfl, rfl⟩,
    by decide, by decide, by decide, Params.default_wf⟩

end Sys2Proof.Machine
end

section
/-! SUPPORT. Proofs of the statements of spec/10_state.md: what an instruction that answers a next state has
run, which operations write which registers, the invariants every step keeps, the scan, and what the
reference chip reads back. -/

namespace Sys2Proof.Machine

/-! ### What an instruction runs -/

/-- R107: an admitted command byte runs the wire command it is the frame of. -/
theorem runCmd_exec {s : State} {c : Byte} (h : admittedCmd s.par c = true) :
    ∃ i, i.isHost = false ∧ encode s.par i = .wire (.adc [c]) ∧ exec i s = .next (runCmd c s) := by
  unfold runCmd
  split_ifs with h1 h2 h3 h4 h5 h6
  · exact ⟨.adcWakeup, rfl, by rw [h1]; rfl, rfl⟩
  · exact ⟨.adcSync, rfl, by rw [h2]; rfl, rfl⟩
  · exact ⟨.adcSelfcal, rfl, by rw [h3]; rfl, rfl⟩
  · exact ⟨.adcRdatac, rfl, by rw [h4]; rfl, rfl⟩
  · exact ⟨.adcSdatac, rfl, by rw [h5]; rfl, rfl⟩
  · exact ⟨.adcReset, rfl, by rw [h6]; rfl, rfl⟩
  · simp [admittedCmd, *] at h

/-- What an instruction that answers a next state has run: a refusal, a wire command, or the body of an
admitted host operation, with what its admission checked (R162 to R164). -/
inductive Ran (s : State) : Instr → State → Prop
  | refused {i : Instr} (e : Status) (hi : i.isHost = true) : Ran s i (s.refuse e)
  | wire {i : Instr} {t : State} (hi : i.isHost = false) (hx : exec i s = .next t) : Ran s i t
  | init (hr : s.hstate ≠ .ready) : Ran s .hostInit (initRun s)
  | reset (hr : s.hstate = .ready) : Ran s .hostReset
      ((waitReady .reset ((resetPulse s).setContMode false).loadDefaults).respond .ok .none)
  | shutdown : Ran s .hostShutdown
      (((if s.lines.held then release s else s).setHState .shutdown).respond .ok .none)
  | configure {g : GainCode} (d : RateIndex) (b : BitVec 1) (hr : s.hstate = .ready)
      (hg : validGainCode g = true) (hc : s.contMode = false) : Ran s (.hostConfigure g d b)
      (((configureBus g d b s).configured g d b).respond .ok .none)
  | setScanMode (m : ScanMode) (hr : s.hstate = .ready) : Ran s (.hostSetScanMode m)
      ((s.setCfg { s.cfg with scanMode := m }).respond .ok .none)
  | getConfig (hr : s.hstate = .ready) : Ran s .hostGetConfig
      (s.respond .ok (.config s.cfg.gain s.cfg.drate s.cfg.bufen s.cfg.scanMode))
  | readChannel (ch : Int) (hr : s.hstate = .ready) (hc : s.contMode = false) :
      Ran s (.hostReadChannel ch) ((acquire .readChannel 0 ch 1#8 s).2.respond .ok
        (.sample (acquire .readChannel 0 ch 1#8 s).1))
  | scan {l : List Int} {n : Byte} {vs : List Sample} (hr : s.hstate = .ready)
      (hl : l.length ≤ maxScan) (hn : n ≠ 0#8) (hc : s.contMode = false)
      (hv : readResults (scanRun l n s) l.length = some vs) :
      Ran s (.hostScanChannels l n) ((scanRun l n s).respond .ok (.samples vs))
  | writeCmd {c : Byte} {i : Instr} {u : State} (hr : s.hstate = .ready)
      (hc : s.contMode = true → endsContMode s.par c = true) (hi : i.isHost = false)
      (he : encode s.par i = .wire (.adc [c])) (hx : exec i s = .next u) :
      Ran s (.hostWriteCmd c) (u.respond .ok .none)
  | writeReg {a : RegAddr} (v : Byte) (hr : s.hstate = .ready) (ha : validReg s.par a = true)
      (hc : s.contMode = false) : Ran s (.hostWriteReg a v) ((wReg1 a v s).respond .ok .none)
  | readReg {a : RegAddr} (hr : s.hstate = .ready) (ha : validReg s.par a = true)
      (hc : s.contMode = false) :
      Ran s (.hostReadReg a) ((rReg1 a s).2.respond .ok (.value (rReg1 a s).1))
  | dacWrite {ch : Int} {d : DacChannel} (code : DacCode) (hr : s.hstate = .ready)
      (hd : dacChannel? ch = some d) :
      Ran s (.hostDacWrite ch code) (((dacFrame d code s).setDac d code).respond .ok .none)
  | dacInvalid {ch : Int} (code : DacCode) (hr : s.hstate = .ready) (hd : dacChannel? ch = none) :
      Ran s (.hostDacWrite ch code) ((s.warn (.dacInvalidChannel ch)).respond .ok .none)
  | perfBegin (d : RateIndex) : Ran s (.hostPerfBegin d)
      (((now s).2.setMon (Mon.begun (drateSps d) (now s).1)).respond .ok .none)
  | perfReport : Ran s .hostPerfReport
      ((refreshed s).respond .ok (.metrics ((refreshed s).mon.report s.par)))
  | voltage (code : Sample) {gain : Nat} (vpos vneg : Rat) (hg : validGainMult gain = true) :
      Ran s (.hostRawToVoltage code gain vpos vneg)
        (s.respond .ok (.voltage (answer s.par (voltageOf code gain vpos vneg))))

namespace Ran

variable {s : State} {i : Instr}

/-! #### Admission: the body, or a refusal -/

theorem whenReady {body : State → State} (hi : i.isHost = true)
    (h : s.hstate = .ready → Ran s i (body s)) : Ran s i (whenReady s body) := by
  unfold Machine.whenReady
  split
  · next hr => exact h hr
  · exact .refused _ hi

theorem whenLegal {ok : Bool} {body : State → State} (hi : i.isHost = true)
    (h : ok = true → Ran s i (body s)) : Ran s i (whenLegal ok s body) := by
  cases ok
  · exact .refused _ hi
  · exact h rfl

theorem whenNotCont {body : State → State} (hi : i.isHost = true)
    (h : s.contMode = false → Ran s i (body s)) : Ran s i (whenNotCont s body) := by
  unfold Machine.whenNotCont
  split
  · exact .refused _ hi
  · next hc => exact h (Bool.eq_false_iff.2 hc)

theorem hostWriteCmd {c : Byte} {t : State} (h : execHostWriteCmd c s = .next t) :
    Ran s (.hostWriteCmd c) t := by
  cases h
  refine whenReady rfl fun hr => whenLegal rfl fun ha => ?_
  obtain ⟨i, hi, he, h⟩ := runCmd_exec ha
  split
  · next hc => exact .writeCmd hr (fun _ => hc) hi he h
  · exact whenNotCont rfl fun hc => .writeCmd hr (by simp [hc]) hi he h

theorem hostDacWrite {ch : Int} {code : DacCode} {t : State}
    (h : execHostDacWrite ch code s = .next t) : Ran s (.hostDacWrite ch code) t := by
  cases h
  refine whenReady rfl fun hr => ?_
  split
  · next hd => exact .dacWrite code hr hd
  · next hd => exact .dacInvalid code hr hd

theorem hostScanChannels {l : List Int} {n : Byte} {t : State}
    (h : execHostScanChannels l n s = .next t) : Ran s (.hostScanChannels l n) t := by
  unfold execHostScanChannels at h
  split_ifs at h with hr hl hn hc
  · cases h; exact .refused _ rfl
  · cases h; exact .refused _ rfl
  · cases h; exact .refused _ rfl
  · cases h; exact .refused _ rfl
  · unfold scanRespond at h
    split at h
    · next hv => cases h; exact .scan (not_not.1 hr) (not_lt.1 hl) hn (Bool.eq_false_iff.2 hc) hv
    · cases h

end Ran

/-- Everything an instruction that answers a next state can have run. -/
theorem exec_ran {i : Instr} {s t : State} (h : exec i s = .next t) : Ran s i t := by
  cases i with
  | hostInit =>
    cases h
    split
    · exact .refused _ rfl
    · next hr => exact .init hr
  | hostReset => cases h; exact .whenReady rfl .reset
  | hostShutdown => cases h; exact .shutdown
  | hostConfigure g d b =>
    cases h
    exact .whenReady rfl fun hr => .whenLegal rfl fun hg => .whenNotCont rfl fun hc =>
      .configure d b hr hg hc
  | hostSetScanMode m => cases h; exact .whenReady rfl (.setScanMode m)
  | hostGetConfig => cases h; exact .whenReady rfl .getConfig
  | hostReadChannel ch => cases h; exact .whenReady rfl fun hr => .whenNotCont rfl (.readChannel ch hr)
  | hostScanChannels l n => exact .hostScanChannels h
  | hostWriteCmd c => exact .hostWriteCmd h
  | hostWriteReg a v =>
    cases h
    exact .whenReady rfl fun hr => .whenLegal rfl fun ha => .whenNotCont rfl (.writeReg v hr ha)
  | hostReadReg a =>
    cases h
    exact .whenReady rfl fun hr => .whenLegal rfl fun ha => .whenNotCont rfl (.readReg hr ha)
  | hostDacWrite ch code => exact .hostDacWrite h
  | hostPerfBegin d => cases h; exact .perfBegin d
  | hostPerfReport => cases h; exact .perfReport
  | hostRawToVoltage code gain vpos vneg => cases h; exact .whenLegal rfl (.voltage code vpos vneg)
  | _ => exact .wire rfl h

/-! ### HOST.INIT -/

/-- R16: OpenTransport, as a record update. -/
theorem openTransport_eq (s : State) : openTransport s = (s.oracle.nextOpen, { s with
    trace := s.trace ++ [.opened s.oracle.nextOpen], oracle := s.oracle.dropOpen }) := rfl

/-- R151: HOST.INIT without a transport. -/
theorem initRun_of_closed {s : State} (ho : s.oracle.nextOpen = false) : initRun s = { s with
    hstate := .uninit
    trace := s.trace ++ [.opened false]
    responses := s.responses ++ [⟨.initBus, .none⟩]
    oracle := s.oracle.dropOpen } := by
  simp [initRun, openTransport_eq, ho, State.setHState, State.respond]

/-- R151: HOST.INIT with the transport open, by the identity that is read. -/
theorem initRun_of_open {s : State} (ho : s.oracle.nextOpen = true) : ∃ k evs ws o,
    s.oracle.lastTick ≤ o.lastTick ∧ WaitShape s.par .low .init k evs ws ∧
    initRun s = if chipIdOf s.par s.oracle.nextByte = s.par.chipId then { s with
        hstate := .ready
        cfg := Cfg.reset
        acq := { s.acq with phase := .idle, pollCnt := k }
        contMode := false
        lines := ⟨true, .driven .high, .driven .high, .driven .high⟩
        trace := s.trace ++ [.opened true] ++ resetPulseEvents s.par ++ evs ++
          [.tx .adc (rregBytes s.par s.par.regStatus) true [s.oracle.nextByte]]
        warnLog := s.warnLog ++ ws
        responses := s.responses ++ [⟨.ok, .none⟩]
        oracle := o }
      else { s with
        hstate := .uninit
        acq := { s.acq with pollCnt := k }
        lines := Lines.released
        trace := s.trace ++ [.opened true] ++ resetPulseEvents s.par ++ evs ++
          [.tx .adc (rregBytes s.par s.par.regStatus) true [s.oracle.nextByte], .closed]
        warnLog := s.warnLog ++ ws
        responses := s.responses ++ [⟨.initId, .none⟩]
        oracle := o } := by
  obtain ⟨k, evs, ws, o, hb, ht, ⟨-, -, -, -, hlast⟩, hs⟩ := identify_spec (openTransport s).2
  refine ⟨k, evs, ws, o.dropByte, hlast, hs, ?_⟩
  simp only [openTransport_eq, ho] at hb ht
  simp only [initRun, openTransport_eq, ho, if_true, hb, ht]
  refine ite_congr rfl (fun _ => ?_) fun _ => ?_
  · simp [initDone, State.setHState, State.respond, State.setContMode, State.setPhase, State.setAcq,
      State.setCfg]
    rfl
  · simp [initFailed, release, closeTransport, State.emit, State.setHState, State.respond,
      State.setLines]
    rfl

/-- R151: what HOST.INIT may write, whatever it finds. -/
theorem initRun_frame (s : State) : ∃ h c ph k b ls tr w r o, initRun s = { s with
    hstate := h, cfg := c, acq := { s.acq with phase := ph, pollCnt := k }, contMode := b, lines := ls
    trace := tr, warnLog := w, responses := r, oracle := o } ∧ (h = .ready ∨ h = .uninit) := by
  cases ho : s.oracle.nextOpen
  · exact ⟨_, _, _, _, _, _, _, _, _, _, initRun_of_closed ho, .inr rfl⟩
  · obtain ⟨k, evs, ws, o, -, -, ht⟩ := initRun_of_open ho
    rw [ht]
    split
    · exact ⟨_, _, _, _, _, _, _, _, _, _, rfl, .inl rfl⟩
    · exact ⟨_, _, _, _, _, _, _, _, _, _, rfl, .inr rfl⟩

/-! ### Which operations write which registers -/

@[simp] theorem release_cfg (s : State) : (release s).cfg = s.cfg := rfl
@[simp] theorem release_acq (s : State) : (release s).acq = s.acq := rfl
@[simp] theorem release_contMode (s : State) : (release s).contMode = s.contMode := rfl
@[simp] theorem release_scan (s : State) : (release s).scan = s.scan := rfl
@[simp] theorem release_dacA (s : State) : (release s).dacA = s.dacA := rfl
@[simp] theorem release_dacB (s : State) : (release s).dacB = s.dacB := rfl
@[simp] theorem release_mon (s : State) : (release s).mon = s.mon := rfl

/-- R139: a report refreshes the monitor at one clock reading, or nothing. -/
theorem refreshed_frame (s : State) : ∃ m o, refreshed s = { s with mon := m, oracle := o } := by
  unfold refreshed
  split
  · exact ⟨_, _, deriveNow_state s⟩
  · exact ⟨_, _, rfl⟩

/-- Settles O40: HOST.INIT and HOST.SHUTDOWN by their own rules, the others leave HSTATE. -/
theorem lifecycleMovesOnlyByInitAndShutdown : Obligations.LifecycleMovesOnlyByInitAndShutdown := by
  unfold Obligations.LifecycleMovesOnlyByInitAndShutdown HState.Moves
  intro i s t h
  cases exec_ran h with
  | init hr =>
    obtain ⟨h, _, _, _, _, _, _, _, _, _, ht, hh⟩ := initRun_frame s
    exact .inr (.inl ⟨rfl, hr, by rwa [ht]⟩)
  | shutdown => exact .inr (.inr ⟨rfl, rfl⟩)
  | wire hi hx => exact .inl (congrArg (·.hstate) (wireCommandsAnswerNothing s t i hi hx).1)
  | writeCmd _ _ hi _ hx => exact .inl (congrArg (·.hstate) (wireCommandsAnswerNothing _ _ _ hi hx).1)
  | scan _ hl hn => exact .inl (by simp [hn, hl])
  | perfReport =>
    obtain ⟨m, o, ht⟩ := refreshed_frame s
    exact .inl (by rw [ht]; rfl)
  | _ => exact .inl (by simp [configureBus, now, nowAtLeast])

theorem dacChannel?_eq_a {ch : Int} : dacChannel? ch = some .a ↔ ch = 0 := by
  unfold dacChannel?; split_ifs <;> simp_all

theorem dacChannel?_eq_b {ch : Int} : dacChannel? ch = some .b ↔ ch = 1 := by
  unfold dacChannel?; split_ifs <;> simp_all

/-- R99, R100, R105: the wire commands that write the configuration or CONT_MODE. -/
theorem wire_writers {i : Instr} {s t : State} (hi : i.isHost = false) (h : exec i s = .next t) :
    (¬t.cfg.gain = s.cfg.gain ∨ ¬t.cfg.drate = s.cfg.drate ∨ ¬t.cfg.bufen = s.cfg.bufen →
      i = .adcReset) ∧
    (¬t.contMode = s.contMode → i = .adcReset ∨ i = .adcRdatac ∨ i = .adcSdatac) := by
  obtain ⟨-, hcfg, hcont, -⟩ := wireCommandsAnswerNothing s t i hi h
  refine ⟨fun hne => ?_, fun hne => ?_⟩
  · by_contra hi
    simp [hcfg hi] at hne
  · by_contra hi
    simp only [not_or] at hi
    exact hne (hcont hi.1 hi.2.1 hi.2.2)

/-- Settles O41: case by case of what the instruction has run. -/
theorem registersHaveOnlyTheirWriters : Obligations.RegistersHaveOnlyTheirWriters := by
  unfold Obligations.RegistersHaveOnlyTheirWriters
  intro i s t h
  cases exec_ran h with
  | init hr =>
    obtain ⟨_, _, _, _, _, _, _, _, _, _, ht, -⟩ := initRun_frame s
    simp [ht]
  | shutdown => split <;> simp
  | wire hi hx =>
    obtain ⟨hc, hb⟩ := wire_writers hi hx
    rw [(wireCommandsAnswerNothing s t i hi hx).1]
    simp only [ne_eq, not_true_eq_false, false_implies, true_and, or_false, and_true]
    exact ⟨fun h => by simp [hc h], fun h => by rcases hb h with rfl | rfl | rfl <;> simp⟩
  | writeCmd _ _ hi he hx =>
    obtain ⟨hc, hb⟩ := wire_writers hi hx
    rw [(wireCommandsAnswerNothing _ _ _ hi hx).1]
    simp only [respond_mon, respond_dacA, respond_dacB, respond_scan, respond_cfg, respond_contMode,
      respond_acq, respond_lines, ne_eq, not_true_eq_false, false_implies, true_and, or_false, and_true]
    refine ⟨fun h => ?_, fun h => ?_⟩
    · obtain rfl := hc h
      simpa [encode, eq_comm] using he
    · rcases hb h with rfl | rfl | rfl <;> simp [encode] at he <;> simp [he]
  | @dacWrite _ d _ _ hd =>
    cases d
    · simp [dacChannel?_eq_a.1 hd]
    · simp [dacChannel?_eq_b.1 hd]
  | scan _ hl hn => simp [hn, hl]
  | perfReport =>
    obtain ⟨m, o, ht⟩ := refreshed_frame s
    simp [ht]
  | _ => simp [configureBus, now, nowAtLeast]

/-! ### The control invariant (R24, R25, R26, R33, R34, R36, R44) -/

/-- R33, R34: the acquisition is idle with its last settling complete and POLL_CNT within its bound. -/
def Acq.AtRest (p : Params) (a : Acq) : Prop :=
  a.phase = .idle ∧ a.settleK = a.settleN ∧ (p.waitMode = .polls → a.pollCnt ≤ p.pollLimit)

/-- R36: the scan registers describe a finished scan. -/
def Scan.AtRest (sc : Scan) : Prop :=
  sc.len = sc.list.length ∧ sc.len ≤ maxScan ∧ sc.idx = sc.len

/-- R25, R44: the lines between two operations. -/
def Lines.atRest (h : HState) : Lines :=
  if h = .ready then ⟨true, .driven .high, .driven .high, .driven .high⟩ else Lines.released

@[simp] theorem Lines.atRest_ready :
    Lines.atRest .ready = ⟨true, .driven .high, .driven .high, .driven .high⟩ := rfl

theorem Lines.atRest_of_ne {h : HState} (hr : h ≠ .ready) : Lines.atRest h = Lines.released :=
  if_neg hr

/-- A transaction de-asserts its chip select again, or drives nothing. -/
@[simp] theorem Lines.drive_atRest (h : HState) (cs : ChipSelect) :
    (Lines.atRest h).drive cs .high = Lines.atRest h :=
  Lines.drive_high_of_held (by unfold Lines.atRest; split <;> simp [Lines.released])

theorem Lines.eq_atRest_iff {ls : Lines} {h : HState} : ls = Lines.atRest h ↔
    (ls.held = true ↔ h = .ready) ∧
    (ls.held = true → ls.csAdc = .driven .high ∧ ls.csDac = .driven .high ∧ ls.rst = .driven .high) ∧
    (ls.held = false → ls = Lines.released) := by
  obtain ⟨held, csAdc, csDac, rst⟩ := ls
  by_cases hr : h = .ready <;> cases held <;> simp [Lines.atRest, Lines.released, hr]

/-- The invariant, part by part of the state. -/
theorem controlInv_iff {s : State} : ControlInv s ↔
    s.acq.AtRest s.par ∧ s.lines = Lines.atRest s.hstate ∧ s.cfg.gain ≠ 7#3 ∧ s.scan.AtRest := by
  rw [Lines.eq_atRest_iff]
  constructor
  · rintro ⟨idle, iff, held, rel, gain, settled, len, bound, done, poll⟩
    exact ⟨⟨idle, settled, poll⟩, ⟨iff, held, rel⟩, gain, len, bound, done⟩
  · rintro ⟨⟨idle, settled, poll⟩, ⟨iff, held, rel⟩, gain, len, bound, done⟩
    exact ⟨idle, iff, held, rel, gain, settled, len, bound, done, poll⟩

theorem Acq.After.atRest {p : Params} {m : ScanMode} {n : Byte} {a b : Acq} (h : Acq.After p m n a b)
    (ha : a.AtRest p) : b.AtRest p := by
  rcases h with rfl | ⟨k, ch, v, -, hk, -, rfl⟩
  · exact ha
  · exact ⟨rfl, rfl, hk⟩

theorem WaitShape.atRest {p : Params} {want : Level} {site : Site} {k : Nat} {evs : List Event}
    {ws : List Warning} (h : WaitShape p want site k evs ws) {a : Acq} (ha : a.AtRest p) :
    Acq.AtRest p { a with pollCnt := k } :=
  ⟨ha.1, ha.2.1, h.pollBound⟩

theorem gain_ne_of_valid : ∀ {g : GainCode}, validGainCode g = true → g ≠ 7#3 := by decide

namespace ControlInv

variable {s t u : State}

theorem acqAtRest (h : ControlInv s) : s.acq.AtRest s.par := (controlInv_iff.1 h).1
theorem lines_eq (h : ControlInv s) : s.lines = Lines.atRest s.hstate := (controlInv_iff.1 h).2.1

/-- What leaves every register of the invariant. -/
theorem congr (h : ControlInv s) (hp : t.par = s.par) (hh : t.hstate = s.hstate) (ha : t.acq = s.acq)
    (hg : t.cfg.gain = s.cfg.gain) (hl : t.lines = s.lines) (hs : t.scan = s.scan) : ControlInv t := by
  rw [controlInv_iff] at h ⊢
  rwa [hp, hh, ha, hg, hl, hs]

theorem respond (h : ControlInv s) (st : Status) (pl : Payload) : ControlInv (s.respond st pl) :=
  h.congr rfl rfl rfl rfl rfl rfl

theorem setContMode (h : ControlInv s) (b : Bool) : ControlInv (s.setContMode b) :=
  h.congr rfl rfl rfl rfl rfl rfl

theorem warn (h : ControlInv s) (w : Warning) : ControlInv (s.warn w) := h.congr rfl rfl rfl rfl rfl rfl

theorem setCfg (h : ControlInv s) {c : Cfg} (hc : c.gain ≠ 7#3) : ControlInv (s.setCfg c) := by
  rw [controlInv_iff] at h ⊢
  exact ⟨h.1, h.2.1, hc, h.2.2.2⟩

/-- An acquisition's piece that ends at rest. -/
theorem of_appends {a : Acq} {evs : List Event} {ws : List Warning} (hap : Appends s t a evs ws)
    (h : ControlInv s) (ha : a.AtRest s.par) : ControlInv t := by
  have hl := h.lines_eq
  rw [controlInv_iff] at h ⊢
  obtain ⟨o, ls, rfl, hls, -⟩ := hap
  refine ⟨ha, ?_, h.2.2⟩
  rcases hls with rfl | rfl <;> simp [hl]

theorem sendCmd (h : ControlInv s) (c : Byte) : ControlInv (sendCmd c s) :=
  h.of_appends (appends_sendCmd c s) h.acqAtRest

theorem wReg1 (h : ControlInv s) (a : RegAddr) (v : Byte) : ControlInv (wReg1 a v s) :=
  h.of_appends (appends_wReg1 a v s) h.acqAtRest

theorem rData (h : ControlInv s) : ControlInv (rData s).2 := by
  obtain ⟨_, _, _, -, ha⟩ := appends_rData s
  exact h.of_appends ha h.acqAtRest

theorem rReg1 (h : ControlInv s) (a : RegAddr) : ControlInv (rReg1 a s).2 :=
  h.congr rfl rfl rfl rfl (by simp [rReg1_state, h.lines_eq]) rfl

theorem dacFrame (h : ControlInv s) (d : DacChannel) (c : DacCode) : ControlInv (dacFrame d c s) :=
  h.congr rfl rfl rfl rfl (by simp [dacFrame_state, h.lines_eq]) rfl

theorem waitReady (h : ControlInv s) (site : Site) : ControlInv (waitReady site s) := by
  obtain ⟨_, _, _, ha, hs⟩ := appends_waitFor .low site s
  exact h.of_appends ha (hs.atRest h.acqAtRest)

theorem acquire (h : ControlInv s) {n : Byte} (hn : n ≠ 0#8) (op : AcqOp) (slot : Nat) (ch : Int) :
    ControlInv (acquire op slot ch n s).2 := by
  obtain ⟨a, evs, ws, hap, -, ha⟩ := acquire_after hn op slot ch s
  exact h.of_appends hap (ha.atRest h.acqAtRest)

/-- R150: held lines are high again after the pulse. -/
theorem resetPulse (h : ControlInv s) (hr : s.hstate = .ready) : ControlInv (resetPulse s) := by
  have hl := h.lines_eq
  rw [hr, Lines.atRest_ready] at hl
  rw [resetPulse_state (by rw [hl])]
  exact h.congr rfl rfl rfl rfl (by simp [hl]) rfl

theorem configureBus (h : ControlInv s) (g : GainCode) (d : RateIndex) (b : BitVec 1) :
    ControlInv (configureBus g d b s) :=
  ((((h.waitReady _).wReg1 _ _).wReg1 _ _).wReg1 _ _).waitReady _

theorem scanRun (h : ControlInv s) {n : Byte} (hn : n ≠ 0#8) {l : List Int} (hl : l.length ≤ maxScan) :
    ControlInv (scanRun l n s) := by
  obtain ⟨a, evs, ws, vs, r, m, ls, o, ht, hls, -, -, ha, -⟩ := scanRun_spec hn hl s
  have hlines := h.lines_eq
  rw [controlInv_iff] at h ⊢
  rw [ht]
  refine ⟨ha.atRest h.1, ?_, h.2.2.1, rfl, hl, rfl⟩
  rcases hls with rfl | rfl <;> simp [hlines]

/-- R151: HOST.INIT from a handle whose lines are released. -/
theorem initRun (h : ControlInv s) (hr : s.hstate ≠ .ready) : ControlInv (initRun s) := by
  rw [controlInv_iff] at h ⊢
  obtain ⟨ha, hl, hg, hs⟩ := h
  cases ho : s.oracle.nextOpen
  · rw [initRun_of_closed ho]
    exact ⟨ha, by rw [hl, Lines.atRest_of_ne hr]; rfl, hg, hs⟩
  · obtain ⟨k, evs, ws, o, -, hw, ht⟩ := initRun_of_open ho
    rw [ht]
    split
    · exact ⟨⟨rfl, (hw.atRest ha).2⟩, rfl, (by decide : (0#3 : GainCode) ≠ 7#3), hs⟩
    · exact ⟨hw.atRest ha, rfl, hg, hs⟩

/-- R153: HOST.SHUTDOWN leaves the lines released. -/
theorem shutdown (h : ControlInv s) :
    ControlInv ((if s.lines.held then release s else s).setHState .shutdown) := by
  rw [controlInv_iff] at h ⊢
  obtain ⟨ha, hl, hg, hs⟩ := h
  split
  · exact ⟨ha, rfl, hg, hs⟩
  · next hh =>
    refine ⟨ha, ?_, hg, hs⟩
    have hr : s.hstate ≠ .ready := fun hr => hh (by rw [hl, hr]; rfl)
    exact hl.trans (Lines.atRest_of_ne hr)

theorem wire {i : Instr} (hi : i.isHost = false) (hx : Machine.exec i s = .next t)
    (h : ControlInv s) : ControlInv t := by
  cases i with
  | adcWakeup => cases hx; exact h.sendCmd _
  | adcRdata => cases hx; exact h.rData
  | adcRdatac => cases hx; exact (h.sendCmd _).setContMode _
  | adcSdatac => cases hx; exact (h.sendCmd _).setContMode _
  | adcRreg a => cases hx; exact h.rReg1 a
  | adcWreg a v => cases hx; exact h.wReg1 a v
  | adcSelfcal => cases hx; exact (h.sendCmd _).waitReady _
  | adcSync => cases hx; exact h.sendCmd _
  | adcReset => cases hx; exact (((h.sendCmd _).setContMode _).setCfg (by simp)).waitReady _
  | dacWriteA c => cases hx; exact h.dacFrame .a c
  | dacWriteB c => cases hx; exact h.dacFrame .b c
  | _ => cases hi -- the host operations

theorem exec {i : Instr} (h : ControlInv s) (hx : Machine.exec i s = .next t) : ControlInv t := by
  cases exec_ran hx with
  | refused e => exact h.respond _ _
  | wire hi hx => exact h.wire hi hx
  | init hr => exact h.initRun hr
  | reset hr =>
    exact ((((h.resetPulse hr).setContMode _).setCfg (by simp)).waitReady _).respond _ _
  | shutdown => exact h.shutdown.respond _ _
  | configure d b hr hg =>
    exact ((h.configureBus _ d b).setCfg (gain_ne_of_valid hg)).respond _ _
  | setScanMode m => exact (h.setCfg (c := { s.cfg with scanMode := m }) h.gainLegal).respond _ _
  | getConfig => exact h.respond _ _
  | readChannel ch => exact (h.acquire (by decide) _ _ ch).respond _ _
  | scan hr hl hn => exact (h.scanRun hn hl).respond _ _
  | writeCmd hr hc hi he hw => exact (h.wire hi hw).respond _ _
  | writeReg v => exact (h.wReg1 _ v).respond _ _
  | readReg => exact (h.rReg1 _).respond _ _
  | @dacWrite _ d code =>
    exact ((h.dacFrame d code).congr (by simp) (by simp) (by simp) (by simp) (by simp)
      (by simp)).respond _ _
  | dacInvalid => exact (h.warn _).respond _ _
  | perfBegin => exact h.congr rfl rfl rfl rfl rfl rfl
  | perfReport =>
    obtain ⟨m, o, ht⟩ := refreshed_frame s
    exact ht ▸ h.congr rfl rfl rfl rfl rfl rfl
  | voltage => exact h.respond _ _

end ControlInv

/-! ### Invariants of a step -/

/-- A predicate that the ports do not bear on and every instruction and response keeps is kept by a step. -/
theorem step_keeps {P : State → Prop}
    (hports : ∀ (s : State) q hs w, P s → P { s with reqPort := q, hostScript := hs, wireSlot := w })
    (hbad : ∀ s, P s → P (s.refuse .badOp))
    (hexec : ∀ (i : Instr) (s t : State), P s → exec i s = .next t → P t)
    {s t : State} (h : P s) (hx : step s = .next t) : P t := by
  have haccept : P s.accept := by
    unfold State.accept
    split
    · exact hports s _ _ _ h
    · exact h
  have hconsume : P s.accept.consume := hports s.accept _ _ _ haccept
  rcases step_next_cases hx with ⟨i, hi⟩ | ⟨i, hi⟩ | rfl | rfl
  · exact hexec i _ t (hports s _ _ _ h) hi
  · exact hexec i _ t hconsume hi
  · exact hbad _ hconsume
  · exact haccept

/-- Settles O45: every instruction keeps the invariant. -/
theorem stepKeepsControlInv : Obligations.StepKeepsControlInv := by
  unfold Obligations.StepKeepsControlInv
  exact fun s t => step_keeps (fun _ _ _ _ h => h.congr rfl rfl rfl rfl rfl rfl)
    (fun _ h => h.respond _ _) fun _ _ _ h hx => h.exec hx

/-! ### The sample invariant (R37, R38, R57, R89, R90) -/

/-- R37, R125: the buffer a scan of the list l with the samples vs leaves, entry by entry. -/
theorem ResultAfter.getElem {l : List Int} {vs : List Sample} {r r' : Vector (Option Sample) 8}
    (h : ResultAfter 0 vs (resultAtStart l r) r') (hlen : vs.length = l.length) (j : Nat) (hj : j < 8) :
    r'[j] = if l = [] then r[j] else vs[j]? := by
  rw [h j hj]
  by_cases hlt : j < vs.length
  · have hl : l ≠ [] := fun hl => by simp [hlen, hl] at hlt
    simp [hlt, hl]
  · by_cases hl : l = [] <;> simp [hl, hlt, resultAtStart]

namespace SampleInv

variable {s t : State}

/-- What leaves every register of the invariant. -/
theorem congr (h : SampleInv s) (hp : t.par = s.par) (hs : t.scan = s.scan) (hc : t.acq.ch = s.acq.ch)
    (hm : t.acq.mux = s.acq.mux) (hl : t.acq.lastSample = s.acq.lastSample) : SampleInv t := by
  obtain ⟨bound, written, beyond, result, last, mux, together⟩ := h
  constructor <;> simpa [hp, hs, hc, hm, hl]

theorem respond (h : SampleInv s) (st : Status) (pl : Payload) : SampleInv (s.respond st pl) :=
  h.congr rfl rfl rfl rfl rfl

/-- Acquisitions that leave the scan registers. -/
theorem of_after {m : ScanMode} {n : Byte} (h : SampleInv s) (hp : t.par = s.par) (hs : t.scan = s.scan)
    (ha : Acq.After s.par m n s.acq t.acq) : SampleInv t := by
  rcases ha with ha | ⟨k, ch, v, hch, -, hv, ha⟩
  · exact h.congr hp hs (by rw [ha]) (by rw [ha]) (by rw [ha])
  · obtain ⟨bound, written, beyond, result, -, -, -⟩ := h
    constructor <;> simp only [hp, hs, ha]
    · exact bound
    · exact written
    · exact beyond
    · exact result
    · rintro u ⟨⟩; exact hv
    · rintro c ⟨⟩; exact ⟨m, hch, rfl⟩
    · simp

theorem acquire (h : SampleInv s) {n : Byte} (hn : n ≠ 0#8) (op : AcqOp) (slot : Nat) (ch : Int) :
    SampleInv (acquire op slot ch n s).2 := by
  obtain ⟨a, evs, ws, hap, -, ha⟩ := acquire_after hn op slot ch s
  rw [← hap.acq] at ha
  exact h.of_after hap.par (acquire_scan s hn op slot ch) ha

/-- R37: a scan's own entries, or those before it if its list is empty. -/
theorem setScan (h : SampleInv s) {l : List Int} (n : Byte) {vs : List Sample}
    {r : Vector (Option Sample) 8} (hl : l.length ≤ maxScan) (hlen : vs.length = l.length)
    (hr : ∀ j (hj : j < 8), r[j] = if l = [] then s.scan.result[j] else vs[j]?)
    (hv : ∀ v ∈ vs, InSampleRange v) :
    SampleInv (s.setScan ⟨l, l.length, l.length, n, r⟩) := by
  obtain ⟨-, -, -, result, last, mux, together⟩ := h
  have hr' (i : Fin 8) : r[i] = if l = [] then s.scan.result[i] else vs[i.val]? := hr i i.isLt
  refine ⟨hl, fun i hi => ?_, fun hpos i hi => ?_, fun i v hiv => ?_, last, mux, together⟩
  · have hne : l ≠ [] := List.ne_nil_of_length_pos (Nat.zero_lt_of_lt hi)
    have hlt : i.val < vs.length := hlen ▸ hi
    change r[i] ≠ none
    simp [hr', hne, hlt]
  · have hne : l ≠ [] := List.ne_nil_of_length_pos hpos
    have hge : vs.length ≤ i.val := hlen ▸ hi
    change r[i] = none
    simp [hr', hne, hge]
  · change r[i] = some v at hiv
    rw [hr'] at hiv
    split at hiv
    · exact result i v hiv
    · exact hv v (List.mem_of_getElem? hiv)

theorem scanRun (h : SampleInv s) {n : Byte} (hn : n ≠ 0#8) {l : List Int} (hl : l.length ≤ maxScan) :
    SampleInv (scanRun l n s) := by
  obtain ⟨a, evs, ws, vs, r, m, ls, o, ht, -, -, hs, ha, -, hr, -⟩ := scanRun_spec hn hl s
  rw [ht]
  exact (h.setScan n hl hs.length (hr.getElem hs.length) hs.range).of_after rfl rfl ha

theorem exec {i : Instr} (h : SampleInv s) (hx : Machine.exec i s = .next t) : SampleInv t := by
  have hw := registersHaveOnlyTheirWriters i s t hx
  obtain ⟨-, -, -, hscan, -, -, -, hacq, -⟩ := hw
  cases i with
  | hostReadChannel ch =>
    cases exec_ran hx with
    | refused e => exact h.respond _ _
    | readChannel => exact (h.acquire (by decide) _ _ ch).respond _ _
    | wire hi => cases hi
  | hostScanChannels l n =>
    cases exec_ran hx with
    | refused e => exact h.respond _ _
    | scan _ hl hn => exact (h.scanRun hn hl).respond _ _
    | wire hi => cases hi
  | _ =>
    simp only [ne_eq, reduceCtorEq, exists_const, imp_false, not_not, or_self, not_or] at hscan hacq
    exact h.congr (Grows.exec hx).par hscan hacq.1 hacq.2.1 hacq.2.2.1

end SampleInv

/-- Settles O46: by O41 only an acquisition or a scan writes what the invariant speaks of. -/
theorem stepKeepsSampleInv : Obligations.StepKeepsSampleInv := by
  unfold Obligations.StepKeepsSampleInv
  exact fun s t => step_keeps (fun _ _ _ _ h => h.congr rfl rfl rfl rfl rfl)
    (fun _ h => h.respond _ _) fun _ _ _ h hx => h.exec hx

/-! ### The monitor's invariant (R40, R41, R134 to R140) -/

/-- R136: what the monitor's counters keep, derived fields aside. -/
structure Mon.Counted (m : Mon) : Prop where
  theoOfTable : ∃ i, m.theo = drateSps i
  scans_le : m.scans ≤ m.samples
  samples_le : m.samples ≤ maxScan * m.scans
  lastN_zero : m.lastN = 0 ↔ m.scans = 0
  lastN_le : m.lastN ≤ m.samples

/-- R136: a scan of 1 to MAX_SCAN entries. -/
theorem Mon.Counted.count {m : Mon} (h : m.Counted) {n : Nat} (hpos : 0 < n) (hn : n ≤ maxScan) :
    (m.count n).Counted := by
  obtain ⟨theo, hsc, hsa, -, -⟩ := h
  simp only [maxScan] at hsa hn
  constructor <;> simp only [Mon.count, maxScan]
  · exact theo
  all_goals omega

theorem spsTotalAt_zero {p : Params} {m : Mon} (h : m.samples = 0) (t : Nat) : spsTotalAt p m t = 0 := by
  simp [spsTotalAt, h]

theorem spsChAt_zero {p : Params} {m : Mon} (h : m.samples = 0) (t : Nat) : spsChAt p m t = 0 := by
  simp [spsChAt, spsTotalAt_zero h]

theorem effAt_zero {p : Params} {m : Mon} (h : m.samples = 0) (t : Nat) : effAt p m t = 0 := by
  simp [effAt, spsChAt_zero h]

namespace MonInv

variable {s t : State}

/-- A monitor that stays is still right when the clock has gone on. -/
theorem mono (h : MonInv s) (hm : t.mon = s.mon) (hp : t.par = s.par)
    (ho : s.oracle.lastTick ≤ t.oracle.lastTick) : MonInv t := by
  obtain ⟨untouched, start, theo, scans, samples, zero, last, none, total, ch, eff, cls⟩ := h
  constructor <;> rw [hm]
  · exact untouched
  · exact start.trans ho
  · exact theo
  · exact scans
  · exact samples
  · exact zero
  · exact last
  · exact none
  · intro hs
    obtain ⟨tick, h₁, h₂, h₃⟩ := total hs
    exact ⟨tick, h₁, h₂.trans ho, by rw [h₃, hp]⟩
  · exact ch
  · exact eff
  · rw [hp]; exact cls

theorem counted (h : MonInv s) (ha : s.mon.active = true) : s.mon.Counted :=
  ⟨h.theoOfTable ha, h.scans_le, h.samples_le, h.lastN_zero, h.lastN_le⟩

/-- R137: Derive at the greatest clock answer makes the derived fields those of the counters. -/
theorem of_derive {m : Mon} (hm : m.Counted) (ha : m.active = true) (hs : m.start ≤ s.oracle.lastTick)
    (ht : s.mon = m.derive s.par s.oracle.lastTick) : MonInv s := by
  obtain ⟨theo, hsc, hsa, hz, hl⟩ := hm
  constructor <;> rw [ht]
  · intro h; simp [Mon.derive, ha] at h
  · exact hs
  · exact fun _ => theo
  · exact hsc
  · exact hsa
  · exact hz
  · exact hl
  · exact fun h => ⟨spsTotalAt_zero h _, spsChAt_zero h _, effAt_zero h _⟩
  · exact fun _ => ⟨_, hs, le_rfl, rfl⟩
  · exact fun h => if_pos h
  · exact fun h => if_pos h
  · rfl

/-- R135: the monitor right after a begin call. -/
theorem of_begun {i : RateIndex} (hm : s.mon = Mon.begun (drateSps i) s.oracle.lastTick) : MonInv s := by
  constructor <;> simp [hm, Mon.begun, classify]

theorem refreshed (h : MonInv s) : MonInv (refreshed s) := by
  unfold Machine.refreshed
  split
  · next ha =>
    exact of_derive (h.counted ha) ha (h.startPast.trans (s.oracle.lastTick_le_nextTick 0)) rfl
  · exact h

theorem scanRun (h : MonInv s) {n : Byte} (hn : n ≠ 0#8) {l : List Int} (hl : l.length ≤ maxScan) :
    MonInv (scanRun l n s) := by
  obtain ⟨a, evs, ws, vs, r, m, ls, o, ht, -, ho, -, -, -, -, hm⟩ := scanRun_spec hn hl s
  rw [ht]
  unfold Mon.AfterScan at hm
  split at hm
  · next hc => exact of_derive ((h.counted hc.2).count hc.1 hl) hc.2 (h.startPast.trans ho) hm
  · exact h.mono hm rfl ho

theorem exec {i : Instr} (h : MonInv s) (hx : Machine.exec i s = .next t) : MonInv t := by
  have hg := Grows.exec hx
  obtain ⟨hmon, -⟩ := registersHaveOnlyTheirWriters i s t hx
  cases i with
  | hostPerfBegin d => cases hx; exact of_begun rfl
  | hostPerfReport => cases hx; exact h.refreshed.mono rfl rfl le_rfl
  | hostScanChannels l n =>
    cases exec_ran hx with
    | refused e => exact h.mono rfl rfl le_rfl
    | scan _ hl hn => exact (h.scanRun hn hl).mono rfl rfl le_rfl
    | wire hi => cases hi
  | _ => exact h.mono (by simpa using hmon) hg.par hg.clock

end MonInv

/-- Settles O47: by O41 only a begin call, a report and a scan write the monitor. -/
theorem stepKeepsMonInv : Obligations.StepKeepsMonInv := by
  unfold Obligations.StepKeepsMonInv
  exact fun s t => step_keeps (fun _ _ _ _ h => h.mono rfl rfl le_rfl)
    (fun _ h => h.mono rfl rfl le_rfl) fun _ _ _ h hx => h.exec hx

/-! ### The events of a wait, an acquisition and a scan -/

section
variable {p : Params} {P : Event → Prop} {evs : List Event} {ws : List Warning}

/-- R117: a wait appends polls. -/
theorem WaitShape.forall_events {want : Level} {site : Site} {k : Nat}
    (h : WaitShape p want site k evs ws) (hpoll : ∀ l, P (.poll l)) : ∀ e ∈ evs, P e := by
  intro e he
  rcases h with ⟨rfl, -⟩ | ⟨rfl, -⟩
  · rcases List.mem_append.1 he with he | he
    · rw [List.eq_of_mem_replicate he]; exact hpoll _
    · rw [List.mem_singleton.1 he]; exact hpoll _
  · rw [List.eq_of_mem_replicate he]; exact hpoll _

/-- R121: a discarded cycle appends an RDATA or polls. -/
theorem DiscardShape.forall_events {site : Site} (h : DiscardShape p site evs ws)
    (hpoll : ∀ l, P (.poll l)) (hdata : ∀ b0 b1 b2, P (rdataEvent p b0 b1 b2)) : ∀ e ∈ evs, P e := by
  unfold DiscardShape at h
  split at h
  · obtain ⟨b0, b1, b2, rfl, -⟩ := h
    simpa using hdata b0 b1 b2
  · obtain ⟨k, h⟩ := h
    exact h.forall_events hpoll

/-- R120: a settling appends polls and RDATAs. -/
theorem SettleShape.forall_events {site : Site} {n : Nat} (h : SettleShape p site n evs ws)
    (hpoll : ∀ l, P (.poll l)) (hdata : ∀ b0 b1 b2, P (rdataEvent p b0 b1 b2)) : ∀ e ∈ evs, P e := by
  induction n using Nat.twoStepInduction generalizing evs ws with
  | zero => simp [h.1]
  | one =>
    obtain ⟨k, h⟩ := h
    exact h.forall_events hpoll
  | more n _ ih =>
    obtain ⟨k, e₁, w₁, e₂, w₂, e₃, w₃, h₁, h₂, h₃, rfl, -⟩ := h
    simp only [List.forall_mem_append]
    exact ⟨⟨h₁.forall_events hpoll, h₂.forall_events hpoll hdata⟩, ih h₃⟩

/-- R113: an acquisition appends the selection's events, polls and RDATAs. -/
theorem AcqShape.forall_events {m : ScanMode} {op : AcqOp} {slot n : Nat} {ch : Int} {v : Sample}
    (h : AcqShape p m op slot ch n evs ws v) (hsel : ∀ e ∈ selectEvents p m ch, P e)
    (hpoll : ∀ l, P (.poll l)) (hdata : ∀ b0 b1 b2, P (rdataEvent p b0 b1 b2)) : ∀ e ∈ evs, P e := by
  unfold AcqShape at h
  split at h
  · obtain ⟨e, b0, b1, b2, hs, rfl, -⟩ := h
    simp only [List.forall_mem_append, List.forall_mem_singleton]
    exact ⟨⟨hsel, hs.forall_events hpoll hdata⟩, hdata b0 b1 b2⟩
  · simp [h.1]

/-- R125: a scan appends its acquisitions' events. -/
theorem ScanShape.forall_events {m : ScanMode} {n i : Nat} {l : List Int} {vs : List Sample}
    (h : ScanShape p m n i l evs ws vs) (hsel : ∀ ch, ∀ e ∈ selectEvents p m ch, P e)
    (hpoll : ∀ l, P (.poll l)) (hdata : ∀ b0 b1 b2, P (rdataEvent p b0 b1 b2)) : ∀ e ∈ evs, P e := by
  induction l generalizing i evs ws vs with
  | nil => simp [h.1]
  | cons ch rest ih =>
    obtain ⟨e₁, w₁, v, e₂, w₂, vs', h₁, h₂, rfl, -⟩ := h
    simp only [List.forall_mem_append]
    exact ⟨h₁.forall_events (hsel ch) hpoll hdata, ih h₂⟩

end

/-! ### Events that leave continuous-read mode (R35, R53, R191) -/

/-- R84: a solo byte is a whole frame. -/
theorem decodeAdc_solo {p : Params} {b : Byte} {i : Instr} (h : decodeSolo p b = some i) :
    decodeAdc p [b] = .ok i := by simp [decodeAdc, h]

/-- R101: the frame of an RREG spells an RREG or nothing. -/
theorem decodeAdc_rregBytes {p : Params} (h : p.Sound) {a : RegAddr} {i : Instr}
    (hi : decodeAdc p (rregBytes p a) = .ok i) : ∃ b, i = .adcRreg b := by
  simp only [decodeAdc, rregBytes, decodeSolo_none (regOpByte_not_solo h a).1, hiNibble_regOpByte,
    if_true] at hi
  cases hr : decodeRegister p (regOpByte p.cmdRreg a) countByte with
  | error e => rw [hr] at hi; cases hi
  | ok b => rw [hr] at hi; cases hi; exact ⟨b, rfl⟩

/-- R102: the frame of a WREG spells a WREG or nothing. -/
theorem decodeAdc_wregBytes {p : Params} (h : p.Sound) {a : RegAddr} {v : Byte} {i : Instr}
    (hi : decodeAdc p (wregBytes p a v) = .ok i) : ∃ b u, i = .adcWreg b u := by
  simp only [decodeAdc, wregBytes, decodeSolo_none (regOpByte_not_solo h a).2, hiNibble_regOpByte,
    Ne.symm h.opcodesDiffer, if_false, if_true] at hi
  cases hr : decodeRegister p (regOpByte p.cmdWreg a) countByte with
  | error e => rw [hr] at hi; cases hi
  | ok b => rw [hr] at hi; cases hi; exact ⟨b, v, rfl⟩

/-- Whatever the chip is, the event leaves continuous-read mode on or off. -/
def Event.KeepsCont (p : Params) (e : Event) : Prop := ∀ c : Chip, (c.see p e).cont = c.cont

/-- R53: only RESET, RDATAC and SDATAC move continuous-read mode. -/
theorem Chip.command_cont (p : Params) (c : Chip) (inp : List Byte) {i : Instr} (hr : i ≠ .adcReset)
    (ho : i ≠ .adcRdatac) (hs : i ≠ .adcSdatac) : (c.command p inp i).cont = c.cont := by
  cases i with
  | adcReset => exact absurd rfl hr
  | adcRdatac => exact absurd rfl ho
  | adcSdatac => exact absurd rfl hs
  | adcWreg a v => simp only [Chip.command]; split <;> simp
  | adcRreg a => simp only [Chip.command]; (repeat' split) <;> simp
  | adcRdata => simp only [Chip.command]; (repeat' split) <;> simp
  | adcWakeup => simp only [Chip.command]; split <;> simp
  | adcSelfcal => exact c.calibrate_cont
  | _ => rfl -- the host operations, the DAC frames and SYNC

theorem keepsCont_tx {p : Params} {out : List Byte} (gap : Bool) (inp : List Byte)
    (h : ∀ i, decodeAdc p out = .ok i → i ≠ .adcReset ∧ i ≠ .adcRdatac ∧ i ≠ .adcSdatac) :
    (Event.tx .adc out gap inp).KeepsCont p := by
  intro c
  cases hd : decodeAdc p out with
  | error e => simp [Chip.see, hd]
  | ok i =>
    obtain ⟨hr, ho, hs⟩ := h i hd
    simp [Chip.see, hd, Chip.command_cont p c inp hr ho hs]

theorem keepsCont_poll (p : Params) (l : Level) : (Event.poll l).KeepsCont p := fun _ => rfl

theorem keepsCont_rreg {p : Params} (h : p.wf = true) (a : RegAddr) (gap : Bool) (inp : List Byte) :
    (Event.tx .adc (rregBytes p a) gap inp).KeepsCont p :=
  keepsCont_tx gap inp fun i hi => by
    obtain ⟨b, rfl⟩ := decodeAdc_rregBytes (Params.sound h) hi
    simp

theorem keepsCont_wreg {p : Params} (h : p.wf = true) (a : RegAddr) (v : Byte) :
    (wregEvent p a v).KeepsCont p :=
  keepsCont_tx _ _ fun i hi => by
    obtain ⟨b, u, rfl⟩ := decodeAdc_wregBytes (Params.sound h) hi
    simp

theorem keepsCont_solo {p : Params} {b : Byte} {i : Instr} (hb : decodeSolo p b = some i)
    (hi : i ≠ .adcReset ∧ i ≠ .adcRdatac ∧ i ≠ .adcSdatac) (gap : Bool) (inp : List Byte) :
    (Event.tx .adc [b] gap inp).KeepsCont p :=
  keepsCont_tx _ _ fun j hj => by
    rw [decodeAdc_solo hb] at hj
    cases hj
    exact hi

/-- The solo commands that leave continuous-read mode. -/
theorem keepsCont_solos {p : Params} (h : p.wf = true) :
    (cmdEvent p.cmdWakeup).KeepsCont p ∧ (cmdEvent p.cmdSync).KeepsCont p ∧
      (cmdEvent p.cmdSelfcal).KeepsCont p ∧ ∀ b0 b1 b2, (rdataEvent p b0 b1 b2).KeepsCont p := by
  obtain ⟨hw, hd, -, -, hc, hs, -⟩ := decodeSolo_solo (Params.sound h).soloNodup
  exact ⟨keepsCont_solo hw (by simp) _ _, keepsCont_solo hs (by simp) _ _,
    keepsCont_solo hc (by simp) _ _, fun _ _ _ => keepsCont_solo hd (by simp) _ _⟩

theorem keepsCont_select {p : Params} (h : p.wf = true) (m : ScanMode) (ch : Int) :
    ∀ e ∈ selectEvents p m ch, e.KeepsCont p := by
  obtain ⟨hw, hs, -, -⟩ := keepsCont_solos h
  simp only [selectEvents, List.forall_mem_cons]
  exact ⟨keepsCont_wreg h _ _, hs, fun _ => rfl, hw, by simp⟩

theorem chipAfter_append (p : Params) (tr evs : List Event) :
    chipAfter p (tr ++ evs) = evs.foldl (Chip.see p) (chipAfter p tr) := List.foldl_append ..

theorem foldl_see_cont {p : Params} {evs : List Event} (h : ∀ e ∈ evs, e.KeepsCont p) (c : Chip) :
    (evs.foldl (Chip.see p) c).cont = c.cont := by
  induction evs generalizing c with
  | nil => rfl
  | cons e es ih =>
    rw [List.forall_mem_cons] at h
    exact (ih h.2 _).trans (h.1 c)

/-! ### CONT_MODE and the reference chip (R35, R53, R99, R100) -/

/-- The parameters are sound and CONT_MODE says whether the reference chip is in continuous-read mode. -/
def ContAgrees (s : State) : Prop :=
  s.par.wf = true ∧ (chipAfter s.par s.trace).cont = s.contMode

namespace ContAgrees

variable {s t : State}

/-- What appends only events that leave continuous-read mode, and leaves CONT_MODE. -/
theorem append (h : ContAgrees s) {evs : List Event} (hp : t.par = s.par)
    (ht : t.trace = s.trace ++ evs) (hc : t.contMode = s.contMode)
    (hk : ∀ e ∈ evs, e.KeepsCont s.par) : ContAgrees t := by
  refine ⟨hp ▸ h.1, ?_⟩
  rw [hp, ht, hc, chipAfter_append, foldl_see_cont hk, h.2]

theorem congr (h : ContAgrees s) (hp : t.par = s.par) (ht : t.trace = s.trace)
    (hc : t.contMode = s.contMode) : ContAgrees t :=
  h.append (evs := []) hp (by simp [ht]) hc (by simp)

theorem respond (h : ContAgrees s) (st : Status) (pl : Payload) : ContAgrees (s.respond st pl) :=
  h.congr rfl rfl rfl

theorem setCfg (h : ContAgrees s) (c : Cfg) : ContAgrees (s.setCfg c) := h.congr rfl rfl rfl

theorem of_appends {a : Acq} {evs : List Event} {ws : List Warning} (hap : Appends s t a evs ws)
    (h : ContAgrees s) (hk : ∀ e ∈ evs, e.KeepsCont s.par) : ContAgrees t := by
  obtain ⟨o, ls, rfl, -⟩ := hap
  exact h.append rfl rfl rfl hk

theorem sendCmd (h : ContAgrees s) {c : Byte} (hc : (cmdEvent c).KeepsCont s.par) :
    ContAgrees (sendCmd c s) :=
  h.of_appends (appends_sendCmd c s) (by simpa using hc)

theorem wReg1 (h : ContAgrees s) (a : RegAddr) (v : Byte) : ContAgrees (wReg1 a v s) :=
  h.of_appends (appends_wReg1 a v s) (by simpa using keepsCont_wreg h.1 a v)

theorem rReg1 (h : ContAgrees s) (a : RegAddr) : ContAgrees (rReg1 a s).2 :=
  h.append (by simp) (by rw [rReg1_state]) (by simp) (by simpa using keepsCont_rreg h.1 a _ _)

theorem rData (h : ContAgrees s) : ContAgrees (rData s).2 := by
  obtain ⟨b0, b1, b2, -, ha⟩ := appends_rData s
  exact h.of_appends ha (by simpa using (keepsCont_solos h.1).2.2.2 b0 b1 b2)

theorem dacFrame (h : ContAgrees s) (d : DacChannel) (c : DacCode) : ContAgrees (dacFrame d c s) :=
  h.append (by simp) (by rw [dacFrame_state]) (by simp)
    (List.forall_mem_singleton.2 fun _ => rfl)

theorem waitReady (h : ContAgrees s) (site : Site) : ContAgrees (waitReady site s) := by
  obtain ⟨_, _, _, ha, hs⟩ := appends_waitFor .low site s
  exact h.of_appends ha (hs.forall_events (keepsCont_poll s.par))

theorem acquire (h : ContAgrees s) {n : Byte} (hn : n ≠ 0#8) (op : AcqOp) (slot : Nat) (ch : Int) :
    ContAgrees (acquire op slot ch n s).2 := by
  obtain ⟨_, _, _, ha, hs, -⟩ := acquire_spec hn op slot ch s
  exact h.of_appends ha (hs.forall_events (keepsCont_select h.1 _ ch) (keepsCont_poll s.par)
    (keepsCont_solos h.1).2.2.2)

theorem scanRun (h : ContAgrees s) {n : Byte} (hn : n ≠ 0#8) {l : List Int} (hl : l.length ≤ maxScan) :
    ContAgrees (scanRun l n s) := by
  obtain ⟨_, _, _, _, _, _, _, _, ht, -, -, hs, -⟩ := scanRun_spec hn hl s
  rw [ht]
  exact h.append rfl rfl rfl (hs.forall_events (keepsCont_select h.1 _) (keepsCont_poll s.par)
    (keepsCont_solos h.1).2.2.2)

theorem configureBus (h : ContAgrees s) (g : GainCode) (d : RateIndex) (b : BitVec 1) :
    ContAgrees (configureBus g d b s) :=
  ((((h.waitReady _).wReg1 _ _).wReg1 _ _).wReg1 _ _).waitReady _

/-- R99, R100, R105: a solo command that sets continuous-read mode. -/
theorem of_sendCmd (hp : s.par.wf = true) {c : Byte} {i : Instr} {b : Bool}
    (hi : decodeSolo s.par c = some i) (hb : ∀ c' : Chip, (c'.command s.par [] i).cont = b) :
    ContAgrees ((Machine.sendCmd c s).setContMode b) := by
  refine ⟨by simpa, ?_⟩
  simp [sendCmd_state, chipAfter_append, cmdEvent, Chip.see, decodeAdc_solo hi, hb]

/-- R150, R178: a reset pulse ends continuous-read mode. -/
theorem of_resetPulse (hp : s.par.wf = true) : ContAgrees ((resetPulse s).setContMode false) := by
  refine ⟨by simpa, ?_⟩
  have ht : (resetPulse s).trace = s.trace ++ resetPulseEvents s.par := by
    simp [resetPulse, setRst, delay, resetPulseEvents]
  simp [ht, chipAfter_append, resetPulseEvents, Chip.see, Chip.afterReset]

/-- R151: HOST.INIT that ends READY has reset the chip. -/
theorem of_initRun (hp : s.par.wf = true) (hr : (initRun s).hstate = .ready) : ContAgrees (initRun s) := by
  cases ho : s.oracle.nextOpen
  · simp [initRun_of_closed ho] at hr
  · obtain ⟨k, evs, ws, o, -, hw, ht⟩ := initRun_of_open ho
    rw [ht] at hr ⊢
    split at hr
    · next hid =>
      rw [if_pos hid]
      refine ⟨hp, ?_⟩
      simp only [chipAfter_append, List.foldl_cons, List.foldl_nil]
      rw [keepsCont_rreg hp, foldl_see_cont (hw.forall_events (keepsCont_poll s.par))]
      simp [resetPulseEvents, Chip.see, Chip.afterReset]
    · cases hr

theorem wire {i : Instr} (hi : i.isHost = false) (hx : exec i s = .next t) (h : ContAgrees s) :
    ContAgrees t := by
  obtain ⟨hwake, hsync, hcal, -⟩ := keepsCont_solos h.1
  obtain ⟨-, -, hrdatac, hsdatac, -, -, hreset⟩ := decodeSolo_solo (Params.sound h.1).soloNodup
  cases i with
  | adcWakeup => cases hx; exact h.sendCmd hwake
  | adcRdata => cases hx; exact h.rData
  | adcRdatac => cases hx; exact of_sendCmd h.1 hrdatac fun _ => rfl
  | adcSdatac =>
    cases hx
    refine of_sendCmd h.1 hsdatac fun c => ?_
    cases hc : c.cont <;> simp [Chip.command, hc]
  | adcRreg a => cases hx; exact h.rReg1 a
  | adcWreg a v => cases hx; exact h.wReg1 a v
  | adcSelfcal => cases hx; exact (h.sendCmd hcal).waitReady _
  | adcSync => cases hx; exact h.sendCmd hsync
  | adcReset =>
    cases hx
    exact ((of_sendCmd h.1 hreset fun _ => rfl).setCfg _).waitReady _
  | dacWriteA c => cases hx; exact h.dacFrame .a c
  | dacWriteB c => cases hx; exact h.dacFrame .b c
  | _ => cases hi -- the host operations

/-- A handle that is READY and stays so. -/
theorem exec {i : Instr} (h : ContAgrees s) (hr : s.hstate = .ready) (ht : t.hstate = .ready)
    (hx : exec i s = .next t) : ContAgrees t := by
  cases exec_ran hx with
  | refused e => exact h.respond _ _
  | wire hi hw => exact h.wire hi hw
  | init hne => exact absurd hr hne
  | reset => exact (((of_resetPulse h.1).setCfg _).waitReady _).respond _ _
  | shutdown => cases ht
  | configure d b => exact ((h.configureBus _ d b).setCfg _).respond _ _
  | setScanMode m => exact h.congr rfl rfl rfl
  | getConfig => exact h.respond _ _
  | readChannel ch => exact (h.acquire (by decide) _ _ ch).respond _ _
  | scan _ hl hn => exact (h.scanRun hn hl).respond _ _
  | writeCmd _ _ hi _ hw => exact (h.wire hi hw).respond _ _
  | writeReg v => exact (h.wReg1 _ v).respond _ _
  | readReg => exact (h.rReg1 _).respond _ _
  | @dacWrite _ d code =>
    exact ((h.dacFrame d code).congr (by simp) (by simp) (by simp)).respond _ _
  | dacInvalid => exact h.congr rfl rfl rfl
  | perfBegin => exact h.congr rfl rfl rfl
  | perfReport =>
    obtain ⟨m, o, hf⟩ := refreshed_frame s
    exact hf ▸ h.congr rfl rfl rfl
  | voltage => exact h.respond _ _

end ContAgrees

namespace ContInv

variable {s t : State}

theorem agrees (h : ContInv s) (hr : s.hstate = .ready) : ContAgrees s := ⟨h.1, h.2 hr⟩

/-- A READY handle was READY, or HOST.INIT has just made it so (R25). -/
theorem exec {i : Instr} (h : ContInv s) (hx : Machine.exec i s = .next t) : ContInv t := by
  refine ⟨(Grows.exec hx).par ▸ h.1, fun ht => ?_⟩
  rcases lifecycleMovesOnlyByInitAndShutdown i s t hx with hh | ⟨rfl, hne, -⟩ | ⟨-, hh⟩
  · have hr := hh.symm.trans ht
    exact ((h.agrees hr).exec hr ht hx).2
  · have hinit : Machine.exec .hostInit s = .next (initRun s) := by simp [Machine.exec, execHostInit, hne]
    obtain rfl : initRun s = t := by rw [hinit] at hx; cases hx; rfl
    exact (ContAgrees.of_initRun h.1 ht).2
  · rw [hh] at ht; cases ht

end ContInv

/-- Settles O49: READY handles stay in agreement, and HOST.INIT resets the chip. -/
theorem stepKeepsContInv : Obligations.StepKeepsContInv := by
  unfold Obligations.StepKeepsContInv
  exact fun s t => step_keeps (fun _ _ _ _ h => h) (fun _ h => h) fun _ _ _ h hx => h.exec hx

/-! ### Power-on reset (R55, R56) -/

theorem ControlInv.reset : ControlInv State.reset :=
  controlInv_iff.2 ⟨⟨rfl, rfl, fun _ => Nat.zero_le _⟩, rfl, by decide, rfl, by decide, rfl⟩

theorem SampleInv.reset : SampleInv State.reset := by
  have hnone : ∀ i : Fin 8, State.reset.scan.result[i] = none := by decide
  constructor
  · exact Nat.zero_le _
  · intro i hi; exact absurd hi (Nat.not_lt_zero _)
  · intro h; exact absurd h (Nat.lt_irrefl 0)
  · intro i v hv; rw [hnone] at hv; cases hv
  · rintro v ⟨⟩
  · rintro ch ⟨⟩
  · exact ⟨iff_of_true rfl rfl, iff_of_true rfl rfl⟩

theorem MonInv.reset : MonInv State.reset := by
  constructor <;> simp [State.reset, Mon.reset, Oracle.reset, classify]

theorem LogInv.reset : LogInv State.reset :=
  ⟨Params.default_wf, by simp [State.reset], by simp [State.reset], by simp [State.reset]⟩

theorem ContInv.reset : ContInv State.reset := ⟨Params.default_wf, fun h => by cases h⟩

/-- Settles O51. -/
theorem resetMeetsInvariants : Obligations.ResetMeetsInvariants :=
  ⟨ControlInv.reset, SampleInv.reset, MonInv.reset, LogInv.reset, ContInv.reset⟩

/-- Settles O52. -/
theorem powerOnValues : Obligations.PowerOnValues := by
  unfold Obligations.PowerOnValues
  exact ⟨rfl, rfl, rfl, rfl, rfl, rfl, rfl, rfl, rfl, rfl, rfl⟩

/-! ### The data-rate table (R29) -/

/-- Settles O20. -/
theorem dataRateTable : Obligations.DataRateTable := by
  unfold Obligations.DataRateTable
  refine ⟨rfl, fun p hp => ?_⟩
  have h := Params.sound hp
  exact ⟨h.drate0, h.drate7, h.drate15⟩

/-! ### A scan and its answer (R125 to R132) -/

/-- Settles O27: what a scan can do (`scanRun_spec`), and the answer read back from RESULT. -/
theorem scanIsItsAcquisitions : Obligations.ScanIsItsAcquisitions := by
  unfold Obligations.ScanIsItsAcquisitions
  intro s l n hr hc hl hn
  obtain ⟨a, evs, ws, vs, r, m, ls, o, ht, hls, -, hs, -, ⟨hinvalid, hlast⟩, hres, -⟩ :=
    scanRun_spec hn hl s
  have hlen := hs.length
  have hres' := hres.getElem hlen
  have hread : readResults (scanRun l n s) l.length = some vs := by
    rw [← hlen]
    exact ResultAfter.read (r := resultAtStart l s.scan.result) (by rw [ht]; exact hres) (hlen ▸ hl)
  refine ⟨(scanRun l n s).respond .ok (.samples vs), evs, ws, vs, ?_, hs, ?_⟩
  · simp [exec, execHostScanChannels, hr, hc, hn, Nat.not_lt.2 hl, scanRespond, hread]
  · rw [ht]
    refine ⟨rfl, rfl, rfl, hlen, hres', fun j ch hj hv hafter => ?_, hinvalid, rfl, rfl, rfl, rfl, rfl,
      hls⟩
    obtain ⟨k, hk⟩ := hlast j ch hj hv hafter
    simp [hk]

/-! ### What the reference chip reads back (R53) -/

/-- R49: the writable bits of STATUS come from the byte written. -/
theorem statusWritten_writable (old new : Byte) :
    (statusWritten old new).extractLsb' 1 3 = new.extractLsb' 1 3 := by
  rw [statusWritten, BitVec.extractLsb'_or, BitVec.extractLsb'_and, BitVec.extractLsb'_and,
    show (0xF1#8).extractLsb' 1 3 = 0#3 by decide,
    show (0x0E#8).extractLsb' 1 3 = BitVec.allOnes 3 by decide, BitVec.and_zero, BitVec.and_allOnes,
    BitVec.zero_or]

/-- R49: the ID bits of STATUS stay. -/
theorem statusWritten_id (old new : Byte) :
    (statusWritten old new).extractLsb' 4 4 = old.extractLsb' 4 4 := by
  rw [statusWritten, BitVec.extractLsb'_or, BitVec.extractLsb'_and, BitVec.extractLsb'_and,
    show (0xF1#8).extractLsb' 4 4 = BitVec.allOnes 4 by decide,
    show (0x0E#8).extractLsb' 4 4 = 0#4 by decide, BitVec.and_zero, BitVec.and_allOnes, BitVec.or_zero]

/-- Bytes that agree in a field agree in every part of it. -/
theorem extract_of_extract {x y : Byte} {lo n : Nat} (h : x.extractLsb' lo n = y.extractLsb' lo n)
    {d m : Nat} (hm : d + m ≤ n) : x.extractLsb' (lo + d) m = y.extractLsb' (lo + d) m := by
  apply BitVec.eq_of_getLsbD_eq
  intro i hi
  have := congrArg (·.getLsbD (d + i)) h
  simpa [hi, show d + i < n by omega, Nat.add_assoc] using this

/-- R48: the first five register addresses differ. -/
theorem regs_ne {p : Params} (h : p.Sound) :
    (p.regMux ≠ p.regStatus ∧ p.regAdcon ≠ p.regStatus ∧ p.regDrate ≠ p.regStatus ∧
      p.regIo ≠ p.regStatus) ∧
    (p.regAdcon ≠ p.regMux ∧ p.regDrate ≠ p.regMux ∧ p.regIo ≠ p.regMux) ∧
    (p.regDrate ≠ p.regAdcon ∧ p.regIo ≠ p.regAdcon) ∧ p.regIo ≠ p.regDrate := by
  have hn := h.addrNodup
  simp only [Params.regs, List.cons_append, List.nodup_cons, List.mem_cons, not_or] at hn
  obtain ⟨⟨h1, h2, h3, h4, -⟩, ⟨h5, h6, h7, -⟩, ⟨h8, h9, -⟩, ⟨h10, -⟩, -⟩ := hn
  exact ⟨⟨Ne.symm h1, Ne.symm h2, Ne.symm h3, Ne.symm h4⟩, ⟨Ne.symm h5, Ne.symm h6, Ne.symm h7⟩,
    ⟨Ne.symm h8, Ne.symm h9⟩, Ne.symm h10⟩

/-- R48: a calibration word is none of the first five registers. -/
theorem calRegs_ne {p : Params} (h : p.Sound) {a : RegAddr} (ha : a ∈ p.calRegs) :
    a ≠ p.regStatus ∧ a ≠ p.regMux ∧ a ≠ p.regAdcon ∧ a ≠ p.regDrate ∧ a ≠ p.regIo := by
  have hd := (List.nodup_append.1 h.addrNodup).2.2
  simp only [List.forall_mem_cons] at hd
  obtain ⟨h1, h2, h3, h4, h5, -⟩ := hd
  exact ⟨(h1 a ha).symm, (h2 a ha).symm, (h3 a ha).symm, (h4 a ha).symm, (h5 a ha).symm⟩

section
variable {p : Params} {v b : Byte} {c : Chip}

/-- R50: MUX keeps the byte written. -/
theorem Chip.readBack_mux (h : p.Sound)
    (hb : (c.writeReg p p.regMux v).mayRead p p.regMux b = true) : b = v := by
  obtain ⟨⟨h1, -⟩, -⟩ := regs_ne h
  simpa [Chip.mayRead, Chip.writeReg, h1] using hb

theorem Chip.readBack_drate (h : p.Sound)
    (hb : (c.writeReg p p.regDrate v).mayRead p p.regDrate b = true) : b = v := by
  obtain ⟨⟨-, -, h1, -⟩, ⟨-, h2, -⟩, ⟨h3, -⟩, -⟩ := regs_ne h
  simpa [Chip.mayRead, Chip.writeReg, h1, h2, h3] using hb

theorem Chip.readBack_io (h : p.Sound)
    (hb : (c.writeReg p p.regIo v).mayRead p p.regIo b = true) : b = v := by
  obtain ⟨⟨-, -, -, h1⟩, ⟨-, -, h2⟩, ⟨-, h3⟩, h4⟩ := regs_ne h
  simpa [Chip.mayRead, Chip.writeReg, h1, h2, h3, h4] using hb

/-- R51: ADCON keeps bits 6:0 of the byte written. -/
theorem Chip.readBack_adcon (h : p.Sound)
    (hb : (c.writeReg p p.regAdcon v).mayRead p p.regAdcon b = true) :
    b.extractLsb' 0 7 = v.extractLsb' 0 7 := by
  obtain ⟨⟨-, h1, -⟩, ⟨h2, -⟩, -⟩ := regs_ne h
  obtain ⟨hb, -⟩ : b.extractLsb' 0 7 = v.extractLsb' 0 7 ∧ (b[7] = false ∨ v[7] = true) := by
    simpa [Chip.mayRead, Chip.writeReg, h1, h2] using hb
  exact hb

/-- R49: STATUS takes its writable bits and keeps its ID. -/
theorem Chip.readBack_status (hb : (c.writeReg p p.regStatus v).mayRead p p.regStatus b = true) :
    b.extractLsb' 1 3 = v.extractLsb' 1 3 ∧ b.extractLsb' 4 4 = c.status.extractLsb' 4 4 := by
  have hbits : b.extractLsb' 1 7 = (statusWritten c.status v).extractLsb' 1 7 := by
    simp only [Chip.mayRead, Chip.writeReg, if_true, Bool.and_eq_true, beq_iff_eq,
      Chip.autoCalibrate_status, Chip.restart_status] at hb
    exact hb.1
  exact ⟨(extract_of_extract (d := 0) hbits (by decide)).trans (statusWritten_writable _ _),
    (extract_of_extract (d := 3) hbits (by decide)).trans (statusWritten_id _ _)⟩

/-- R52: a calibration word keeps the byte written, once no calibration can replace it (log 27). -/
theorem Chip.readBack_cal (h : p.Sound) {a : RegAddr} (ha : a ∈ p.calRegs) (hc : c.calibrating = false)
    (hb : (c.writeReg p a v).mayRead p a b = true) : b = v := by
  obtain ⟨h1, h2, h3, h4, h5⟩ := calRegs_ne h ha
  symm
  simpa [Chip.mayRead, Chip.writeReg, h1, h2, h3, h4, h5, ha, hc, fits_some] using hb

end

/-- R108: an admitted HOST.WRITE_REG. -/
theorem exec_hostWriteReg {s : State} {a : RegAddr} (hr : s.hstate = .ready) (hc : s.contMode = false)
    (ha : a.toNat < s.par.regCount) (v : Byte) :
    exec (.hostWriteReg a v) s = .next ((wReg1 a v s).respond .ok .none) := by
  simp [exec, execHostWriteReg, whenReady_of_ready hr, whenLegal, validReg, ha, whenNotCont_of_false hc]

/-- R109: an admitted HOST.READ_REG. -/
theorem exec_hostReadReg {s : State} {a : RegAddr} (hr : s.hstate = .ready) (hc : s.contMode = false)
    (ha : a.toNat < s.par.regCount) : exec (.hostReadReg a) s =
      .next ((rReg1 a s).2.respond .ok (.value s.oracle.nextByte)) := by
  simp [exec, execHostReadReg, whenReady_of_ready hr, whenLegal, validReg, ha, whenNotCont_of_false hc]

/-- Settles O54: the chip sees the write and answers the read, register by register. -/
theorem referenceChipReadsBack : Obligations.ReferenceChipReadsBack := by
  unfold Obligations.ReferenceChipReadsBack
  intro s t u a v b evs hinv hr hc ha hw hrd hresp htrace hcons
  have hwf := hinv.1
  have hs := Params.sound hwf
  have hlt := hs.addrLt a ha
  have hcont : (chipAfter s.par s.trace).cont = false := (hinv.2 hr).trans hc
  rw [exec_hostWriteReg hr hc hlt] at hw
  obtain rfl : (wReg1 a v s).respond .ok .none = t := by cases hw; rfl
  rw [exec_hostReadReg (by simpa) (by simpa) (by simpa)] at hrd
  cases hrd
  obtain rfl : s.oracle.nextByte = b := by simpa using hresp
  obtain rfl : [wregEvent s.par a v, .tx .adc (rregBytes s.par a) true [s.oracle.nextByte]] = evs := by
    simpa [wReg1_state, rReg1_state] using htrace
  simp only [chipConsistent, Bool.and_eq_true] at hcons
  obtain ⟨-, hread, -⟩ := hcons
  rw [wregEvent, Chip.see_wreg hwf hlt v hcont,
    Chip.answers_rreg hwf hlt _ (by rwa [Chip.writeReg_cont])] at hread
  refine ⟨?_, ?_, ?_, fun hcal hstill => Chip.readBack_cal hs hcal hstill hread⟩
  · rintro (rfl | rfl | rfl)
    · exact Chip.readBack_mux hs hread
    · exact Chip.readBack_drate hs hread
    · exact Chip.readBack_io hs hread
  · rintro rfl; exact Chip.readBack_adcon hs hread
  · rintro rfl; exact Chip.readBack_status hread

/-! ### The registers no operation reads before it writes them (R37, R57, R157) -/

/-- Contents of the registers that reset leaves without a value. -/
structure Unwritten where
  result : Vector (Option Sample) 8
  ch : Option Int
  mux : Option Byte
  lastSample : Option Sample
  dacA : Option DacCode
  dacB : Option DacCode

/-- The state with other contents of those registers. -/
def State.alter (s : State) (h : Unwritten) : State :=
  { s with
    acq := { s.acq with ch := h.ch, mux := h.mux, lastSample := h.lastSample }
    scan := { s.scan with result := h.result }
    dacA := h.dacA
    dacB := h.dacB }

/-! #### What commutes with the change: the waits, HOST.INIT, settling -/

@[simp] theorem alter_par (s : State) (h : Unwritten) : (s.alter h).par = s.par := rfl

theorem wReg1_alter (a : RegAddr) (v : Byte) (s : State) (h : Unwritten) :
    wReg1 a v (s.alter h) = (wReg1 a v s).alter h := rfl

theorem pollLoop_alter (want : Level) (site : Site) (left : Nat) (s : State) (h : Unwritten) :
    pollLoop want site left (s.alter h) = (pollLoop want site left s).map id (State.alter · h) := by
  induction left generalizing s with
  | zero => rfl
  | succ left ih =>
    unfold pollLoop
    rw [apply_ite (Prod.map id (State.alter · h))]
    exact ite_congr rfl (fun _ => rfl) fun _ => ih (pollDrdy s).2.countPoll

theorem deadlineLoop_alter (want : Level) (site : Site) (t0 left : Nat) (s : State) (h : Unwritten) :
    deadlineLoop want site t0 left (s.alter h) =
      (deadlineLoop want site t0 left s).map id (State.alter · h) := by
  induction left generalizing s with
  | zero => rfl
  | succ left ih =>
    unfold deadlineLoop
    rw [apply_ite (Prod.map id (State.alter · h)), apply_ite (Prod.map id (State.alter · h))]
    exact ite_congr rfl (fun _ => rfl) fun _ => ite_congr rfl (fun _ => rfl) fun _ =>
      ih (pollDrdy (now s).2).2.countPoll

theorem waitFor_alter (want : Level) (site : Site) (s : State) (h : Unwritten) :
    waitFor want site (s.alter h) = (waitFor want site s).map id (State.alter · h) := by
  unfold waitFor
  rw [alter_par]
  cases s.par.waitMode
  · exact pollLoop_alter want site _ (s.setAcq { s.acq with pollCnt := 0 }) h
  · exact deadlineLoop_alter want site _ _ (now (s.setAcq { s.acq with pollCnt := 0 })).2 h

theorem waitReady_alter (site : Site) (s : State) (h : Unwritten) :
    waitReady site (s.alter h) = (waitReady site s).alter h :=
  congrArg Prod.snd (waitFor_alter .low site s h)

theorem configureBus_alter (g : GainCode) (d : RateIndex) (b : BitVec 1) (s : State) (h : Unwritten) :
    configureBus g d b (s.alter h) = (configureBus g d b s).alter h := by
  simp only [configureBus, waitReady_alter, wReg1_alter, alter_par]

theorem identify_alter (s : State) (h : Unwritten) :
    identify (s.alter h) = ((identify s).1, (identify s).2.alter h) := by
  unfold identify
  rw [show resetPulse (holdLines (s.alter h)) = (resetPulse (holdLines s)).alter h from rfl,
    waitReady_alter]
  rfl

theorem initRun_alter (s : State) (h : Unwritten) : initRun (s.alter h) = (initRun s).alter h := by
  unfold initRun
  rw [show openTransport (s.alter h) = ((openTransport s).1, (openTransport s).2.alter h) from rfl]
  simp only [identify_alter]
  rw [apply_ite (State.alter · h)]
  refine ite_congr rfl (fun _ => ?_) fun _ => rfl
  rw [apply_ite (State.alter · h)]
  exact ite_congr rfl (fun _ => rfl) fun _ => rfl

theorem shutdown_alter (s : State) (h : Unwritten) :
    (if (s.alter h).lines.held then release (s.alter h) else s.alter h) =
      (if s.lines.held then release s else s).alter h := by
  rw [apply_ite (State.alter · h)]
  exact ite_congr rfl (fun _ => rfl) fun _ => rfl

theorem refreshed_alter (s : State) (h : Unwritten) : refreshed (s.alter h) = (refreshed s).alter h := by
  unfold refreshed
  rw [apply_ite (State.alter · h)]
  exact ite_congr rfl (fun _ => rfl) fun _ => rfl

theorem selfcalCmd_alter (s : State) (h : Unwritten) : selfcalCmd (s.alter h) = (selfcalCmd s).alter h :=
  waitReady_alter .selfcal (sendCmd s.par.cmdSelfcal s) h

theorem resetCmd_alter (s : State) (h : Unwritten) : resetCmd (s.alter h) = (resetCmd s).alter h :=
  waitReady_alter .reset ((sendCmd s.par.cmdReset s).setContMode false).loadDefaults h

theorem runCmd_alter (c : Byte) (s : State) (h : Unwritten) : runCmd c (s.alter h) = (runCmd c s).alter h := by
  unfold runCmd
  rw [alter_par]
  split_ifs
  · rfl
  · rfl
  · exact selfcalCmd_alter s h
  · rfl
  · rfl
  · exact resetCmd_alter s h
  · rfl

theorem discardCycle_alter (site : Site) (s : State) (h : Unwritten) :
    discardCycle site (s.alter h) = (discardCycle site s).alter h := by
  unfold discardCycle waitNotReady
  rw [waitFor_alter, alter_par]
  split <;> rfl

theorem observeReady_alter (site : Site) (s : State) (h : Unwritten) :
    observeReady site (s.alter h) = (observeReady site s).alter h := by
  unfold observeReady
  rw [waitReady_alter]
  rfl

theorem settleLoop_alter (site : Site) (left : Nat) (s : State) (h : Unwritten) :
    settleLoop site left (s.alter h) = (settleLoop site left s).alter h := by
  induction left generalizing s with
  | zero => rfl
  | succ left ih =>
    unfold settleLoop
    rw [observeReady_alter, discardCycle_alter, ih]
    split <;> rfl

theorem settle_alter (n : Byte) (site : Site) (s : State) (h : Unwritten) :
    settle n site (s.alter h) = (settle n site s).alter h :=
  settleLoop_alter site n.toNat (s.setAcq { s.acq with settleN := n, settleK := 0#8 }) h

/-! #### What writes them: an acquisition, a scan, HOST.DAC_WRITE -/

theorem readPhase_alter (s : State) (h : Unwritten) : readPhase (s.alter h) =
    ((readPhase s).1, (readPhase s).2.alter { h with lastSample := some (readPhase s).1 }) := rfl

/-- R113: an acquisition of a valid index writes the channel's registers. -/
theorem acquireValid_alter (op : AcqOp) (slot : Nat) (ch : Int) (n : Byte) (s : State) (h : Unwritten) :
    ∃ h' : Unwritten, h'.result = h.result ∧ acquireValid op slot ch n (s.alter h) =
      ((acquireValid op slot ch n s).1, (acquireValid op slot ch n s).2.alter h') := by
  let mux := muxCode s.par s.cfg.scanMode ch
  let s₀ := s.setAcq { s.acq with ch := some ch, mux := some mux }
  let h₀ : Unwritten := { h with ch := some ch, mux := some mux }
  refine ⟨{ h₀ with lastSample := some (acquireValid op slot ch n s).1 }, rfl, ?_⟩
  calc acquireValid op slot ch n (s.alter h)
    _ = readPhase (settle n (.acq op slot) ((wake (synchronize (selectChannel mux s₀))).alter h₀)) := rfl
    _ = readPhase ((settle n (.acq op slot) (wake (synchronize (selectChannel mux s₀)))).alter h₀) := by
      rw [settle_alter]
    _ = _ := readPhase_alter _ h₀

theorem acquire_alter (op : AcqOp) (slot : Nat) (ch : Int) (n : Byte) (s : State) (h : Unwritten) :
    ∃ h' : Unwritten, h'.result = h.result ∧ acquire op slot ch n (s.alter h) =
      ((acquire op slot ch n s).1, (acquire op slot ch n s).2.alter h') := by
  unfold acquire
  rw [show (s.alter h).cfg = s.cfg from rfl]
  split
  · exact acquireValid_alter op slot ch n s h
  · exact ⟨h, rfl, rfl⟩

/-- R125: a slot writes its entry of RESULT, the same one whatever the registers held. -/
theorem scanSlot_alter {n : Byte} (hn : n ≠ 0#8) (i : Nat) (ch : Int) (s : State) {h : Unwritten}
    (hr : h.result = s.scan.result) : ∃ h' : Unwritten, h'.result = (scanSlot n i ch s).scan.result ∧
      scanSlot n i ch (s.alter h) = (scanSlot n i ch s).alter h' := by
  obtain ⟨h', hr', ha⟩ := acquire_alter .scanChannels i ch n (s.setScanIdx i) h
  refine ⟨{ h' with result := (scanSlot n i ch s).scan.result }, rfl, ?_⟩
  have hs : (acquire .scanChannels i ch n (s.setScanIdx i)).2.scan.result = h'.result := by
    simp [hn, hr', hr]
  unfold scanSlot
  rw [show (s.alter h).setScanIdx i = (s.setScanIdx i).alter h from rfl, ha]
  simp only [setResult_scan, hs]
  rfl

theorem scanLoop_alter {n : Byte} (hn : n ≠ 0#8) (l : List Int) (i : Nat) (s : State) {h : Unwritten}
    (hr : h.result = s.scan.result) : ∃ h' : Unwritten, h'.result = (scanLoop n i l s).scan.result ∧
      scanLoop n i l (s.alter h) = (scanLoop n i l s).alter h' := by
  induction l generalizing i s h with
  | nil => exact ⟨h, hr, rfl⟩
  | cons ch rest ih =>
    obtain ⟨h₁, hr₁, h₂⟩ := scanSlot_alter hn i ch s hr
    simp only [scanLoop, h₂]
    exact ih (i + 1) (scanSlot n i ch s) hr₁

/-- R37: the entries that are read are RESULT's. -/
theorem readResults_congr {s t : State} (h : t.scan.result = s.scan.result) (n : Nat) :
    readResults t n = readResults s n := by
  induction n with
  | zero => rfl
  | succ n ih => simp only [readResults, ih, h]

/-- R136: what follows the slots leaves RESULT. -/
theorem scanRun_result (l : List Int) (n : Byte) (s : State) :
    (scanRun l n s).scan.result = (scanLoop n 0 l (scanStart l n s)).scan.result := by
  unfold scanRun
  dsimp only
  split <;> rfl

/-- R37, R125: a scan with a slot begins on entries without a value, and an empty one reads none. -/
theorem scanRun_alter {n : Byte} (hn : n ≠ 0#8) (l : List Int) (s : State) (h : Unwritten) :
    ∃ h' : Unwritten, scanRun l n (s.alter h) = (scanRun l n s).alter h' ∧
      readResults ((scanRun l n s).alter h') l.length = readResults (scanRun l n s) l.length := by
  cases l with
  | nil => exact ⟨h, rfl, rfl⟩
  | cons ch rest =>
    let h₀ : Unwritten := { h with result := Vector.replicate 8 none }
    obtain ⟨h', hr, hl⟩ := scanLoop_alter hn (ch :: rest) 0 (scanStart (ch :: rest) n s) (h := h₀) rfl
    refine ⟨h', ?_, readResults_congr (hr.trans (scanRun_result _ n s).symm) _⟩
    unfold scanRun
    rw [show scanStart (ch :: rest) n (s.alter h) = (scanStart (ch :: rest) n s).alter h₀ from rfl, hl,
      apply_ite (State.alter · h')]
    exact ite_congr rfl (fun _ => rfl) fun _ => rfl

/-! #### Every instruction, on two states that agree outside these registers -/

/-- R57: the states differ at most in the registers that reset leaves without a value. -/
def Alike (s s' : State) : Prop := ∃ h, s' = s.alter h

namespace Alike

variable {s t : State} {h : Unwritten}

theorem whenReady {body : State → State} (hb : Alike (body s) (body (s.alter h))) :
    Alike (whenReady s body) (whenReady (s.alter h) body) := by
  unfold Machine.whenReady
  rw [show (s.alter h).hstate = s.hstate from rfl]
  split
  · exact hb
  · exact ⟨h, rfl⟩

theorem whenLegal {ok : Bool} {body : State → State} (hb : Alike (body s) (body (s.alter h))) :
    Alike (whenLegal ok s body) (whenLegal ok (s.alter h) body) := by
  cases ok
  · exact ⟨h, rfl⟩
  · exact hb

theorem whenNotCont {body : State → State} (hb : Alike (body s) (body (s.alter h))) :
    Alike (whenNotCont s body) (whenNotCont (s.alter h) body) := by
  unfold Machine.whenNotCont
  rw [show (s.alter h).contMode = s.contMode from rfl]
  split
  · exact ⟨h, rfl⟩
  · exact hb

/-- The answer of an operation whose registers have been compared. -/
theorem respond {u u' : State} (a : Alike u u') (st : Status) (pl : Payload) :
    Alike (u.respond st pl) (u'.respond st pl) := by
  obtain ⟨h, rfl⟩ := a
  exact ⟨h, rfl⟩

theorem setDac (d : DacChannel) (c : DacCode) : Alike (s.setDac d c) ((s.alter h).setDac d c) := by
  cases d
  · exact ⟨{ h with dacA := some c }, rfl⟩
  · exact ⟨{ h with dacB := some c }, rfl⟩

theorem hostReadChannel (ch : Int) :
    Alike ((acquire .readChannel 0 ch 1#8 s).2.respond .ok (.sample (acquire .readChannel 0 ch 1#8 s).1))
      ((acquire .readChannel 0 ch 1#8 (s.alter h)).2.respond .ok
        (.sample (acquire .readChannel 0 ch 1#8 (s.alter h)).1)) := by
  obtain ⟨h', -, ha⟩ := acquire_alter .readChannel 0 ch 1#8 s h
  rw [ha]
  exact ⟨h', rfl⟩

theorem hostWriteCmd (c : Byte) (hx : execHostWriteCmd c s = .next t) :
    ∃ t', execHostWriteCmd c (s.alter h) = .next t' ∧ Alike t t' := by
  cases hx
  refine ⟨_, rfl, whenReady (whenLegal ?_)⟩
  have hrun : Alike ((runCmd c s).respond .ok .none) ((runCmd c (s.alter h)).respond .ok .none) :=
    respond ⟨h, runCmd_alter c s h⟩ _ _
  rw [alter_par]
  split
  · exact hrun
  · exact whenNotCont hrun

theorem hostDacWrite (ch : Int) (c : DacCode) (hx : execHostDacWrite ch c s = .next t) :
    ∃ t', execHostDacWrite ch c (s.alter h) = .next t' ∧ Alike t t' := by
  cases hx
  refine ⟨_, rfl, whenReady ?_⟩
  split
  · next d _ => exact (setDac (s := dacFrame d c s) d c).respond _ _
  · exact ⟨h, rfl⟩

theorem hostScanChannels (l : List Int) (n : Byte) (hx : execHostScanChannels l n s = .next t) :
    ∃ t', execHostScanChannels l n (s.alter h) = .next t' ∧ Alike t t' := by
  unfold execHostScanChannels at hx ⊢
  rw [show (s.alter h).hstate = s.hstate from rfl, show (s.alter h).contMode = s.contMode from rfl]
  split_ifs at hx ⊢ with hr hl hn hc
  · cases hx; exact ⟨_, rfl, h, rfl⟩
  · cases hx; exact ⟨_, rfl, h, rfl⟩
  · cases hx; exact ⟨_, rfl, h, rfl⟩
  · cases hx; exact ⟨_, rfl, h, rfl⟩
  · obtain ⟨h', hrun, hread⟩ := scanRun_alter hn l s h
    unfold scanRespond at hx ⊢
    rw [hrun, hread]
    split at hx
    · cases hx; exact ⟨_, rfl, h', rfl⟩
    · cases hx

theorem exec {i : Instr} (h : Unwritten) (hx : Machine.exec i s = .next t) :
    ∃ t', Machine.exec i (s.alter h) = .next t' ∧ Alike t t' := by
  cases i with
  | hostInit =>
    cases hx
    refine ⟨_, rfl, ?_⟩
    rw [show (s.alter h).hstate = s.hstate from rfl]
    split
    · exact ⟨h, rfl⟩
    · exact ⟨h, initRun_alter s h⟩
  | hostReset =>
    cases hx
    exact ⟨_, rfl, whenReady (respond
      ⟨h, waitReady_alter .reset ((resetPulse s).setContMode false).loadDefaults h⟩ _ _)⟩
  | hostShutdown =>
    cases hx
    exact ⟨_, rfl, respond ⟨h, congrArg (State.setHState · .shutdown) (shutdown_alter s h)⟩ _ _⟩
  | hostConfigure g d b =>
    cases hx
    exact ⟨_, rfl, whenReady (whenLegal (whenNotCont (respond
      ⟨h, congrArg (State.configured · g d b) (configureBus_alter g d b s h)⟩ _ _)))⟩
  | hostReadChannel ch => cases hx; exact ⟨_, rfl, whenReady (whenNotCont (hostReadChannel ch))⟩
  | hostScanChannels l n => exact hostScanChannels l n hx
  | hostWriteCmd c => exact hostWriteCmd c hx
  | hostWriteReg a v => cases hx; exact ⟨_, rfl, whenReady (whenLegal (whenNotCont ⟨h, rfl⟩))⟩
  | hostReadReg a => cases hx; exact ⟨_, rfl, whenReady (whenLegal (whenNotCont ⟨h, rfl⟩))⟩
  | hostDacWrite ch c => exact hostDacWrite ch c hx
  | hostPerfReport =>
    cases hx
    refine ⟨_, rfl, h, ?_⟩
    rw [refreshed_alter]
    rfl
  | hostSetScanMode m => cases hx; exact ⟨_, rfl, whenReady ⟨h, rfl⟩⟩
  | hostGetConfig => cases hx; exact ⟨_, rfl, whenReady ⟨h, rfl⟩⟩
  | hostRawToVoltage c g vp vn => cases hx; exact ⟨_, rfl, whenLegal ⟨h, rfl⟩⟩
  | adcSelfcal => cases hx; exact ⟨_, rfl, h, selfcalCmd_alter s h⟩
  | adcReset => cases hx; exact ⟨_, rfl, h, resetCmd_alter s h⟩
  | _ => cases hx; exact ⟨_, rfl, h, rfl⟩ -- HOST.PERF_BEGIN, and the commands of one transaction

end Alike

/-- Settles O44: every instruction keeps the two states alike. -/
theorem unwrittenRegistersAreNeverRead : Obligations.UnwrittenRegistersAreNeverRead := by
  unfold Obligations.UnwrittenRegistersAreNeverRead
  intro i s t r ch mux v a b hx
  obtain ⟨t', ht', h, rfl⟩ := Alike.exec ⟨r, ch, mux, v, a, b⟩ hx
  exact ⟨_, ht', rfl⟩

end Sys2Proof.Machine
end

section
/-! SUPPORT. Proofs of the statements of spec/20_memory.md: a DAC frame on the bus, what the operations append
to the logs and that it is legal, and what of it leaves the chip's configuration registers alone. -/

namespace Sys2Proof.Machine

/-! ### A DAC frame on the bus (R63, R155) -/

/-- R63: the code goes out most significant byte first. -/
theorem dacBytes_append (ctrl high low : Byte) : dacBytes ctrl (high ++ low) = [ctrl, high, low] := by
  rw [dacBytes, extract_high, extract_low]

/-- Settles O12: either frame is one DAC transaction (`dacFrame_state`) of these bytes. -/
theorem dacFramesAreOneTransaction : Obligations.DacFramesAreOneTransaction := by
  unfold Obligations.DacFramesAreOneTransaction
  intro s high low
  simp [exec, execDacWriteA, execDacWriteB, dacFrame_state, dacEvent, dacCtrl, dacBytes_append]

/-! ### The warnings of a wait, an acquisition and a scan (R159) -/

/-- A wait that is no acquisition's is for the low level, and may time out. -/
theorem legal_timeout {p : Params} {site : Site} (h : ∀ op slot, site ≠ .acq op slot) :
    (Warning.drdyTimeout site .low).Legal p :=
  ⟨fun op slot hs => absurd hs (h op slot), nofun⟩

theorem legal_acqTimeout {p : Params} {op : AcqOp} {slot : Nat} (hslot : slot < maxScan)
    (hop : op = .readChannel → slot = 0) : (Warning.drdyTimeout (.acq op slot) .low).Legal p := by
  refine ⟨fun op' slot' hs => ?_, nofun⟩
  cases hs
  exact ⟨hslot, hop⟩

/-- R121: a discarded cycle waits for the high level, in a scan only. -/
theorem legal_discardTimeout {p : Params} {slot : Nat} (hslot : slot < maxScan)
    (hd : p.settleDiscardRead = false) : (Warning.drdyTimeout (.acq .scanChannels slot) .high).Legal p := by
  refine ⟨fun op' slot' hs => ?_, fun _ => ⟨hd, slot, rfl⟩⟩
  cases hs
  exact ⟨hslot, nofun⟩

/-- R110: an index below NUM_CH of both modes is valid in either. -/
theorem not_in_range_of_invalid {m : ScanMode} {ch : Int} (h : ¬validCh m ch = true) :
    ¬(0 ≤ ch ∧ ch < 4) := by
  simp only [validCh, Bool.and_eq_true, decide_eq_true_eq] at h
  cases m <;> simp only [numCh, seChannels, diffChannels] at h <;> omega

/-- R156: an index that is no channel may be warned of. -/
theorem legal_dacInvalid {p : Params} {ch : Int} (h : dacChannel? ch = none) :
    (Warning.dacInvalidChannel ch).Legal p := by
  unfold dacChannel? at h
  split_ifs at h with h0 h1
  exact ⟨h0, h1⟩

section
variable {p : Params} {evs : List Event} {ws : List Warning}

/-- R117: a wait appends its timeout, or no warning. -/
theorem WaitShape.forall_warnings {Q : Warning → Prop} {want : Level} {site : Site} {k : Nat}
    (h : WaitShape p want site k evs ws) (hq : Q (.drdyTimeout site want)) : ∀ w ∈ ws, Q w := by
  rcases h with ⟨-, rfl, -⟩ | ⟨-, rfl, -⟩
  · simp
  · simpa using hq

/-- R120, R121: a settling of one transition only waits for the low level. -/
theorem SettleShape.warnings_legal {op : AcqOp} {slot n : Nat}
    (h : SettleShape p (.acq op slot) n evs ws) (hslot : slot < maxScan)
    (hop : op = .readChannel → slot = 0 ∧ n = 1) : ∀ w ∈ ws, w.Legal p := by
  have hlow := legal_acqTimeout (p := p) hslot fun ho => (hop ho).1
  induction n using Nat.twoStepInduction generalizing evs ws with
  | zero => simp [h.2]
  | one =>
    obtain ⟨k, h⟩ := h
    exact h.forall_warnings hlow
  | more n _ ih =>
    obtain ⟨k, e₁, w₁, e₂, w₂, e₃, w₃, h₁, h₂, h₃, -, rfl⟩ := h
    obtain rfl : op = .scanChannels := by
      cases op
      · exact absurd (hop rfl).2 (by omega)
      · rfl
    have hdiscard : ∀ w ∈ w₂, w.Legal p := by
      unfold DiscardShape at h₂
      split at h₂
      · obtain ⟨b0, b1, b2, -, rfl⟩ := h₂
        simp
      · next hd =>
        obtain ⟨k, h₂⟩ := h₂
        exact h₂.forall_warnings (legal_discardTimeout hslot (Bool.eq_false_iff.2 hd))
    simp only [List.forall_mem_append]
    exact ⟨⟨h₁.forall_warnings hlow, hdiscard⟩, ih h₃ nofun⟩

/-- R111, R113: an acquisition appends its settling's warnings, or that its index is invalid. -/
theorem AcqShape.warnings_legal {m : ScanMode} {op : AcqOp} {slot n : Nat} {ch : Int} {v : Sample}
    (h : AcqShape p m op slot ch n evs ws v) (hslot : slot < maxScan)
    (hop : op = .readChannel → slot = 0 ∧ n = 1) : ∀ w ∈ ws, w.Legal p := by
  unfold AcqShape at h
  split at h
  · obtain ⟨e, b0, b1, b2, hs, -⟩ := h
    exact hs.warnings_legal hslot hop
  · next hv =>
    obtain ⟨-, rfl, -⟩ := h
    exact List.forall_mem_singleton.2 ⟨hslot, fun ho => (hop ho).1, not_in_range_of_invalid hv⟩

/-- R125: a scan appends its acquisitions' warnings. -/
theorem ScanShape.warnings_legal {m : ScanMode} {n i : Nat} {l : List Int} {vs : List Sample}
    (h : ScanShape p m n i l evs ws vs) (hl : i + l.length ≤ maxScan) : ∀ w ∈ ws, w.Legal p := by
  induction l generalizing i evs ws vs with
  | nil => simp [h.2.1]
  | cons ch rest ih =>
    obtain ⟨e₁, w₁, v, e₂, w₂, vs', h₁, h₂, -, rfl, -⟩ := h
    rw [List.length_cons] at hl
    simp only [List.forall_mem_append]
    exact ⟨h₁.warnings_legal (by omega) nofun, ih h₂ (by omega)⟩

end

/-! ### What an operation appends -/

/-- R150: the pulse's events, whether or not the lines are held. -/
theorem resetPulse_trace (s : State) : (resetPulse s).trace = s.trace ++ resetPulseEvents s.par := by
  simp [resetPulse, setRst, delay, resetPulseEvents]

/-- The parameters and the responses are the same, the events appended are of one kind, and the warnings
appended are legal (R159). -/
structure Emits (P : Event → Prop) (s t : State) : Prop where
  par : t.par = s.par
  responses : t.responses = s.responses
  trace : ∃ evs, t.trace = s.trace ++ evs ∧ ∀ e ∈ evs, P e
  warnLog : ∃ ws, t.warnLog = s.warnLog ++ ws ∧ ∀ w ∈ ws, w.Legal s.par

namespace Emits

variable {P : Event → Prop} {s t u : State}

theorem refl (s : State) : Emits P s s := ⟨rfl, rfl, ⟨[], by simp⟩, [], by simp⟩

theorem append (h : Emits P s t) {evs : List Event} {ws : List Warning} (hp : u.par = t.par)
    (hr : u.responses = t.responses) (ht : u.trace = t.trace ++ evs) (hw : u.warnLog = t.warnLog ++ ws)
    (hevs : ∀ e ∈ evs, P e) (hws : ∀ w ∈ ws, w.Legal s.par) : Emits P s u := by
  obtain ⟨e, he, hpe⟩ := h.trace
  obtain ⟨w, hw', hlw⟩ := h.warnLog
  exact ⟨hp.trans h.par, hr.trans h.responses,
    ⟨e ++ evs, by simp [ht, he], List.forall_mem_append.2 ⟨hpe, hevs⟩⟩,
    w ++ ws, by simp [hw, hw'], List.forall_mem_append.2 ⟨hlw, hws⟩⟩

theorem of_appends {a : Acq} {evs : List Event} {ws : List Warning} (h : Emits P s t)
    (hap : Appends t u a evs ws) (hevs : ∀ e ∈ evs, P e) (hws : ∀ w ∈ ws, w.Legal s.par) :
    Emits P s u := by
  obtain ⟨o, ls, rfl, -⟩ := hap
  exact h.append rfl rfl rfl rfl hevs hws

/-- What writes neither a log nor the parameters. -/
theorem quiet (h : Emits P s t) (hp : u.par = t.par) (hr : u.responses = t.responses)
    (ht : u.trace = t.trace) (hw : u.warnLog = t.warnLog) : Emits P s u :=
  h.append (evs := []) (ws := []) hp hr (by simp [ht]) (by simp [hw]) (by simp) (by simp)

theorem emit (h : Emits P s t) {e : Event} (he : P e) : Emits P s (t.emit e) :=
  h.append (ws := []) rfl rfl rfl (by simp) (List.forall_mem_singleton.2 he) (by simp)

theorem warn (h : Emits P s t) {w : Warning} (hw : w.Legal s.par) : Emits P s (t.warn w) :=
  h.append (evs := []) rfl rfl (by simp) rfl (by simp) (List.forall_mem_singleton.2 hw)

theorem setContMode (h : Emits P s t) (b : Bool) : Emits P s (t.setContMode b) := h.quiet rfl rfl rfl rfl

theorem setCfg (h : Emits P s t) (c : Cfg) : Emits P s (t.setCfg c) := h.quiet rfl rfl rfl rfl

theorem sendCmd (h : Emits P s t) {c : Byte} (hc : P (cmdEvent c)) : Emits P s (sendCmd c t) :=
  h.of_appends (appends_sendCmd c t) (List.forall_mem_singleton.2 hc) (by simp)

theorem wReg1 (h : Emits P s t) {a : RegAddr} {v : Byte} (hw : P (wregEvent s.par a v)) :
    Emits P s (wReg1 a v t) :=
  h.of_appends (appends_wReg1 a v t) (List.forall_mem_singleton.2 (h.par ▸ hw)) (by simp)

theorem rReg1 (h : Emits P s t) {a : RegAddr} (hr : ∀ v, P (.tx .adc (rregBytes s.par a) true [v])) :
    Emits P s (rReg1 a t).2 :=
  h.append (ws := []) (by simp) (by simp) (by rw [rReg1_state]) (by simp)
    (List.forall_mem_singleton.2 (h.par ▸ hr _)) (by simp)

theorem rData (h : Emits P s t) (hd : ∀ b0 b1 b2, P (rdataEvent s.par b0 b1 b2)) :
    Emits P s (rData t).2 := by
  obtain ⟨b0, b1, b2, -, ha⟩ := appends_rData t
  exact h.of_appends ha (List.forall_mem_singleton.2 (h.par ▸ hd b0 b1 b2)) (by simp)

theorem dacFrame (h : Emits P s t) {d : DacChannel} {c : DacCode} (hd : P (dacEvent s.par d c)) :
    Emits P s (dacFrame d c t) :=
  h.append (ws := []) (by simp) (by simp) (by rw [dacFrame_state]) (by simp)
    (List.forall_mem_singleton.2 (h.par ▸ hd)) (by simp)

theorem waitReady (h : Emits P s t) {site : Site} (hpoll : ∀ l, P (.poll l))
    (hsite : ∀ op slot, site ≠ .acq op slot) : Emits P s (waitReady site t) := by
  obtain ⟨_, _, _, ha, hs⟩ := appends_waitFor .low site t
  exact h.of_appends ha (hs.forall_events hpoll) (hs.forall_warnings (legal_timeout hsite))

theorem resetPulse (h : Emits P s t) (he : ∀ e ∈ resetPulseEvents s.par, P e) :
    Emits P s (resetPulse t) := by
  rw [← h.par] at he
  exact h.append (ws := []) (by simp) (by simp) (resetPulse_trace t) (by simp) he (by simp)

/-- R124, R125: the slot is one of a scan's, or the only one of a single acquisition. -/
theorem acquire (h : Emits P s t) {n : Byte} (hn : n ≠ 0#8) {op : AcqOp} {slot : Nat} {ch : Int}
    (hslot : slot < maxScan) (hop : op = .readChannel → slot = 0 ∧ n = 1#8)
    (hsel : ∀ m ch, ∀ e ∈ selectEvents s.par m ch, P e) (hpoll : ∀ l, P (.poll l))
    (hdata : ∀ b0 b1 b2, P (rdataEvent s.par b0 b1 b2)) : Emits P s (acquire op slot ch n t).2 := by
  obtain ⟨_, _, _, ha, hs, -⟩ := acquire_spec hn op slot ch t
  rw [h.par] at hs
  exact h.of_appends ha (hs.forall_events (hsel _ ch) hpoll hdata)
    (hs.warnings_legal hslot fun ho => ⟨(hop ho).1, by rw [(hop ho).2]; rfl⟩)

theorem scanRun (h : Emits P s t) {n : Byte} (hn : n ≠ 0#8) {l : List Int} (hl : l.length ≤ maxScan)
    (hsel : ∀ m ch, ∀ e ∈ selectEvents s.par m ch, P e) (hpoll : ∀ l, P (.poll l))
    (hdata : ∀ b0 b1 b2, P (rdataEvent s.par b0 b1 b2)) : Emits P s (scanRun l n t) := by
  obtain ⟨_, _, _, _, _, _, _, _, ht, -, -, hs, -⟩ := scanRun_spec hn hl t
  rw [h.par] at hs
  rw [ht]
  exact h.append rfl rfl rfl rfl (hs.forall_events (hsel _) hpoll hdata)
    (hs.warnings_legal (by simpa using hl))

end Emits

/-! ### The events an operation may emit (R66, R93, R182) -/

theorem legal_cmd {p : Params} {c : Byte} (h : c ∈ p.hostCmds) : (cmdEvent c).legal p = true := by
  simp only [Event.legal, cmdEvent, Bool.or_eq_true, List.any_eq_true]
  exact .inl (.inl (.inl ⟨c, h, by simp [Event.isCmd]⟩))

theorem legal_rdata (p : Params) (b0 b1 b2 : Byte) : (rdataEvent p b0 b1 b2).legal p = true := by
  simp [Event.legal, rdataEvent, Event.isRdata]

theorem legal_rreg {p : Params} (h : p.Sound) {a : RegAddr} (ha : a.toNat < p.regCount) (v : Byte) :
    (Event.tx .adc (rregBytes p a) true [v]).legal p = true := by
  simp [Event.legal, rregBytes, Event.isRreg, hiNibble_regOpByte, loNibble_regOpByte h.rregLow, ha]

theorem legal_wreg {p : Params} (h : p.Sound) {a : RegAddr} (ha : a.toNat < p.regCount) (v : Byte) :
    (wregEvent p a v).legal p = true := by
  simp [Event.legal, wregEvent, wregBytes, Event.isWreg, hiNibble_regOpByte,
    loNibble_regOpByte h.wregLow, ha]

theorem legal_dac (p : Params) (d : DacChannel) (c : DacCode) : (dacEvent p d c).legal p = true := by
  cases d <;> simp [Event.legal, dacEvent, dacBytes, Event.isDac, dacCtrl]

theorem legal_poll (p : Params) (l : Level) : (Event.poll l).legal p = true := rfl

theorem legal_resetPulse (p : Params) : ∀ e ∈ resetPulseEvents p, e.legal p = true := by
  simp [resetPulseEvents, Event.legal]

theorem legal_select {p : Params} (h : p.Sound) (m : ScanMode) (ch : Int) :
    ∀ e ∈ selectEvents p m ch, e.legal p = true := by
  simp only [selectEvents, List.forall_mem_cons]
  exact ⟨legal_wreg h (h.addrLt _ (by simp [Params.regs])) _, legal_cmd (by simp [Params.hostCmds]),
    by simp [Event.legal], legal_cmd (by simp [Params.hostCmds]), by simp⟩

/-- What the block may emit. -/
abbrev EmitsLegal (s t : State) : Prop := Emits (fun e => e.legal s.par = true) s t

/-- R145: the writes of HOST.CONFIGURE are of three registers. -/
theorem emitsLegal_configureBus {s : State} (h : s.par.Sound) (g : GainCode) (d : RateIndex)
    (b : BitVec 1) : EmitsLegal s (configureBus g d b s) := by
  have hlt : ∀ {a}, a ∈ s.par.regs → a.toNat < s.par.regCount := fun ha => h.addrLt _ ha
  refine Emits.waitReady ?_ (legal_poll s.par) (by simp)
  refine (((Emits.refl s).waitReady (legal_poll s.par) (by simp)).wReg1 ?_ |>.wReg1 ?_).wReg1 ?_ <;>
    exact legal_wreg h (hlt (by simp [Params.regs])) _

theorem emitsLegal_wire {i : Instr} {s t : State} (hp : s.par.wf = true) (hi : i.isHost = false)
    (hw : i.wellFormed s.par = true) (hx : exec i s = .next t) : EmitsLegal s t := by
  have h : EmitsLegal s s := Emits.refl s
  have hs := Params.sound hp
  have hpoll := legal_poll s.par
  have hcmd : ∀ {c}, c ∈ s.par.hostCmds → (cmdEvent c).legal s.par = true := legal_cmd
  simp only [Params.hostCmds, List.mem_cons, List.not_mem_nil, or_false] at hcmd
  cases i with
  | adcWakeup => cases hx; exact h.sendCmd (hcmd (by simp))
  | adcRdata => cases hx; exact h.rData (legal_rdata s.par)
  | adcRdatac => cases hx; exact (h.sendCmd (hcmd (by simp))).setContMode _
  | adcSdatac => cases hx; exact (h.sendCmd (hcmd (by simp))).setContMode _
  | adcRreg a => cases hx; exact h.rReg1 (legal_rreg hs (by simpa [Instr.wellFormed] using hw))
  | adcWreg a v => cases hx; exact h.wReg1 (legal_wreg hs (by simpa [Instr.wellFormed] using hw) v)
  | adcSelfcal => cases hx; exact (h.sendCmd (hcmd (by simp))).waitReady hpoll (by simp)
  | adcSync => cases hx; exact h.sendCmd (hcmd (by simp))
  | adcReset =>
    cases hx
    exact (((h.sendCmd (hcmd (by simp))).setContMode _).setCfg _).waitReady hpoll (by simp)
  | dacWriteA c => cases hx; exact h.dacFrame (legal_dac s.par .a c)
  | dacWriteB c => cases hx; exact h.dacFrame (legal_dac s.par .b c)
  | _ => cases hi -- the host operations

/-! ### What a step decodes (R82, R93, R106) -/

/-- R80: a request spells a host operation. -/
theorem decodeRequest_isHost {r : Request} {i : Instr} (h : decodeRequest r = .ok i) :
    i.isHost = true := by
  unfold decodeRequest at h
  split at h <;> cases h <;> rfl

theorem decodeRegister_lt {p : Params} {first count : Byte} {a : RegAddr}
    (h : decodeRegister p first count = .ok a) : a.toNat < p.regCount := by
  unfold decodeRegister at h
  split_ifs at h with _ _ hlt
  cases h
  exact hlt

/-- R93, R106: the address of a register command that decodes is a register's. -/
theorem wellFormed_of_decodeRegister {p : Params} {first count : Byte} {f : RegAddr → Instr} {i : Instr}
    (hf : ∀ a, a.toNat < p.regCount → (f a).wellFormed p = true)
    (h : (decodeRegister p first count).map f = .ok i) : i.wellFormed p = true := by
  cases hr : decodeRegister p first count with
  | error e => rw [hr] at h; cases h
  | ok a => rw [hr] at h; cases h; exact hf a (decodeRegister_lt hr)

/-- R83, R84: an ADC frame spells its solo byte's command, or a register command of a register. -/
theorem decodeAdc_wellFormed {p : Params} {bytes : List Byte} {i : Instr}
    (h : decodeAdc p bytes = .ok i) : i.wellFormed p = true := by
  unfold decodeAdc at h
  split at h
  · cases h
  · next first rest =>
    split at h
    · next j hj =>
      split_ifs at h
      cases h
      exact (decodeSolo_some hj).2.2.1
    · split_ifs at h
      · split at h
        · exact wellFormed_of_decodeRegister (fun _ => decide_eq_true) h
        · cases h
      · split at h
        · exact wellFormed_of_decodeRegister (fun _ => decide_eq_true) h
        · cases h

/-- R87: a DAC frame spells a write of its channel. -/
theorem decodeDac_wellFormed {p : Params} {bytes : List Byte} {i : Instr}
    (h : decodeDac p bytes = .ok i) : i.wellFormed p = true := by
  unfold decodeDac at h
  (repeat' split at h) <;> cases h <;> rfl

/-- R93, R106: a wire frame spells a command the block may send. -/
theorem decodeWire_wellFormed {p : Params} {f : WireFrame} {i : Instr} (h : decodeWire p f = .ok i) :
    i.wellFormed p = true := by
  cases f with
  | adc bytes => exact decodeAdc_wellFormed h
  | dac bytes => exact decodeDac_wellFormed h

/-- `step_keeps`, with what the decoder says of the instruction: one from the wire slot is well formed. -/
theorem step_keeps_of_decoded {P : State → Prop}
    (hports : ∀ (s : State) q hs w, P s → P { s with reqPort := q, hostScript := hs, wireSlot := w })
    (hbad : ∀ s, P s → P (s.refuse .badOp))
    (hexec : ∀ (i : Instr) (s t : State), P s → (i.isHost = false → i.wellFormed s.par = true) →
      exec i s = .next t → P t)
    {s t : State} (h : P s) (hx : step s = .next t) : P t := by
  have haccept : P s.accept := by
    unfold State.accept
    split
    · exact hports s _ _ _ h
    · exact h
  have hconsume : P s.accept.consume := hports s.accept _ _ _ haccept
  unfold step at hx
  split at hx
  · split at hx
    · next hi => exact hexec _ _ t (hports s _ _ none h) (fun _ => decodeWire_wellFormed hi) hx
    · cases hx
  · split at hx
    · cases hx; exact haccept
    · split at hx
      · next hi => exact hexec _ _ t hconsume (by simp [decodeRequest_isHost hi]) hx
      · cases hx; exact hbad _ hconsume

/-! ### Legal logs (R66, R79, R93, R159) -/

/-- R84: a one-byte frame has no operand that could be out of range. -/
theorem wellFormed_of_encode_solo {p : Params} {i : Instr} {c : Byte}
    (h : encode p i = .wire (.adc [c])) : i.wellFormed p = true := by
  cases i <;> simp [encode, rregBytes, wregBytes] at h <;> rfl

namespace LogInv

variable {s t : State}

/-- What appends only legal records, and keeps the parameters. -/
theorem append (h : LogInv s) {evs : List Event} {ws : List Warning} {rs : List Response}
    (hp : t.par = s.par) (ht : t.trace = s.trace ++ evs) (hw : t.warnLog = s.warnLog ++ ws)
    (hr : t.responses = s.responses ++ rs) (hevs : ∀ e ∈ evs, e.legal s.par = true)
    (hws : ∀ w ∈ ws, w.Legal s.par) (hrs : ∀ r ∈ rs, r.status ≠ .ok → r.payload = .none) :
    LogInv t := by
  obtain ⟨hwf, hev, hwarn, hpay⟩ := h
  constructor
  · exact hp ▸ hwf
  · rw [hp, ht]; exact List.forall_mem_append.2 ⟨hev, hevs⟩
  · rw [hp, hw]; exact List.forall_mem_append.2 ⟨hwarn, hws⟩
  · rw [hr]; exact List.forall_mem_append.2 ⟨hpay, hrs⟩

theorem refuse (h : LogInv s) (e : Status) : LogInv (s.refuse e) :=
  h.append (evs := []) (ws := []) rfl (by simp) (by simp) (refuse_responses s e) (by simp) (by simp)
    (List.forall_mem_singleton.2 fun _ => rfl)

/-- An admitted operation that emits legal events and answers OK. -/
theorem answer (h : LogInv s) (he : EmitsLegal s t) (pl : Payload) : LogInv (t.respond .ok pl) := by
  obtain ⟨hp, hr, ⟨evs, ht, hevs⟩, ws, hw, hws⟩ := he
  exact h.append hp ht hw (by rw [respond_responses, hr]) hevs hws
    (List.forall_mem_singleton.2 fun hst => absurd rfl hst)

/-- A wire command answers nothing. -/
theorem of_emits (h : LogInv s) (he : EmitsLegal s t) : LogInv t := by
  obtain ⟨hp, hr, ⟨evs, ht, hevs⟩, ws, hw, hws⟩ := he
  exact h.append (rs := []) hp ht hw (by simpa using hr) hevs hws (by simp)

/-- R151: HOST.INIT pulses RST_N, waits and reads STATUS, and answers no payload. -/
theorem initRun (h : LogInv s) : LogInv (initRun s) := by
  cases ho : s.oracle.nextOpen
  · rw [initRun_of_closed ho]
    exact h.append (ws := []) rfl rfl (by simp) rfl (List.forall_mem_singleton.2 rfl) (by simp)
      (List.forall_mem_singleton.2 fun _ => rfl)
  · obtain ⟨k, evs, ws, o, -, hs, ht⟩ := initRun_of_open ho
    have hsound := Params.sound h.params
    have hstatus := legal_rreg hsound (hsound.addrLt s.par.regStatus (by simp [Params.regs]))
      s.oracle.nextByte
    have hevs : ∀ e ∈ [Event.opened true] ++ resetPulseEvents s.par ++ evs ++
        [.tx .adc (rregBytes s.par s.par.regStatus) true [s.oracle.nextByte]], e.legal s.par = true := by
      simp only [List.forall_mem_append, List.forall_mem_singleton]
      exact ⟨⟨⟨rfl, legal_resetPulse s.par⟩, hs.forall_events (legal_poll s.par)⟩, hstatus⟩
    have hclosed : ∀ e ∈ [Event.closed], e.legal s.par = true := List.forall_mem_singleton.2 rfl
    have hws := hs.forall_warnings (Q := Warning.Legal s.par) (legal_timeout (by simp))
    rw [ht]
    split
    · exact h.append rfl (by simp) rfl rfl hevs hws (List.forall_mem_singleton.2 fun _ => rfl)
    · exact h.append rfl (by simp) rfl rfl
        (List.forall_mem_append.2 ⟨hevs, hclosed⟩) hws
        (List.forall_mem_singleton.2 fun _ => rfl)

theorem exec {i : Instr} (h : LogInv s) (hw : i.isHost = false → i.wellFormed s.par = true)
    (hx : exec i s = .next t) : LogInv t := by
  have hr : EmitsLegal s s := Emits.refl s
  have hs := Params.sound h.params
  have hsel := legal_select hs
  have hpoll := legal_poll s.par
  have hdata := legal_rdata s.par
  cases exec_ran hx with
  | refused e => exact h.refuse e
  | wire hi hx => exact h.of_emits (emitsLegal_wire h.params hi (hw hi) hx)
  | init => exact h.initRun
  | reset =>
    exact h.answer ((((hr.resetPulse (legal_resetPulse s.par)).setContMode _).setCfg _).waitReady
      hpoll (by simp)) _
  | shutdown =>
    refine h.answer ?_ _
    split
    · exact (hr.emit (e := .closed) rfl).quiet rfl rfl rfl rfl
    · exact hr.quiet rfl rfl rfl rfl
  | configure d b => exact h.answer ((emitsLegal_configureBus hs _ d b).setCfg _) _
  | setScanMode => exact h.answer (hr.setCfg _) _
  | getConfig => exact h.answer hr _
  | readChannel ch =>
    exact h.answer (hr.acquire (by decide) (by decide) (fun _ => ⟨rfl, rfl⟩) hsel hpoll hdata) _
  | scan _ hl hn => exact h.answer (hr.scanRun hn hl hsel hpoll hdata) _
  | writeCmd _ _ hi he hc =>
    exact h.answer (emitsLegal_wire h.params hi (wellFormed_of_encode_solo he) hc) _
  | writeReg v _ ha => exact h.answer (hr.wReg1 (legal_wreg hs (of_decide_eq_true ha) v)) _
  | readReg _ ha => exact h.answer (hr.rReg1 (legal_rreg hs (of_decide_eq_true ha))) _
  | @dacWrite _ d code =>
    exact h.answer ((hr.dacFrame (legal_dac s.par d code)).quiet (by simp) (by simp) (by simp)
      (by simp)) _
  | dacInvalid _ _ hd => exact h.answer (hr.warn (legal_dacInvalid hd)) _
  | perfBegin => exact h.answer (hr.quiet (u := (now s).2.setMon _) rfl rfl rfl rfl) _
  | perfReport =>
    obtain ⟨m, o, hf⟩ := refreshed_frame s
    have he : EmitsLegal s (refreshed s) := hf ▸ hr.quiet rfl rfl rfl rfl
    exact h.answer he _
  | voltage => exact h.answer hr _

end LogInv

/-- Settles O48: what an instruction appends is legal if it is a host operation or well formed, and a frame in
the wire slot decodes to a well-formed command only. -/
theorem stepKeepsLogInv : Obligations.StepKeepsLogInv := by
  unfold Obligations.StepKeepsLogInv
  exact fun s t => step_keeps_of_decoded (fun _ _ _ _ ⟨hp, he, hw, hr⟩ => ⟨hp, he, hw, hr⟩)
    (fun _ h => h.refuse _) fun _ _ _ h hw hx => h.exec hw hx

/-! ### Events that leave the chip's configuration registers (R53, R69, R70) -/

/-- R70: the registers of the chip that the configuration register file describes. -/
def Chip.configBytes (c : Chip) : Byte × Byte × Byte := (c.status, c.adcon, c.drate)

theorem describes_congr {p : Params} {cfg : Cfg} {c c' : Chip} (h : c'.configBytes = c.configBytes) :
    cfg.describes p c' = cfg.describes p c := by
  simp only [Chip.configBytes, Prod.mk.injEq] at h
  obtain ⟨hs, ha, hd⟩ := h
  simp only [Cfg.describes, hs, ha, hd]

/-- Whatever the chip is, the event leaves STATUS, ADCON and DRATE. -/
def Event.KeepsConfig (p : Params) (e : Event) : Prop := ∀ c : Chip, (c.see p e).configBytes = c.configBytes

/-- R53: only RESET and WREG write a register. -/
theorem Chip.command_configBytes (p : Params) (c : Chip) (inp : List Byte) {i : Instr}
    (hr : i ≠ .adcReset) (hw : ∀ a v, i ≠ .adcWreg a v) :
    (c.command p inp i).configBytes = c.configBytes := by
  cases i with
  | adcReset => exact absurd rfl hr
  | adcWreg a v => exact absurd rfl (hw a v)
  | adcRreg a => simp only [Chip.command]; (repeat' split) <;> simp [Chip.configBytes]
  | adcRdata => simp only [Chip.command]; (repeat' split) <;> simp [Chip.configBytes]
  | adcSdatac => simp only [Chip.command]; split <;> rfl
  | adcWakeup => simp only [Chip.command]; split <;> rfl
  | _ => rfl -- the host operations, the DAC frames, RDATAC, SELFCAL and SYNC

/-- R48: a write of another register leaves STATUS, ADCON and DRATE. -/
theorem Chip.writeReg_configBytes {p : Params} {a : RegAddr} (hs : a ≠ p.regStatus)
    (ha : a ≠ p.regAdcon) (hd : a ≠ p.regDrate) (v : Byte) (c : Chip) :
    (c.writeReg p a v).configBytes = c.configBytes := by
  simp only [Chip.writeReg, hs, ha, hd, if_false]
  (repeat' split) <;> rfl

theorem keepsConfig_poll (p : Params) (l : Level) : (Event.poll l).KeepsConfig p := fun _ => rfl

theorem keepsConfig_dac (p : Params) (d : DacChannel) (c : DacCode) : (dacEvent p d c).KeepsConfig p :=
  fun _ => rfl

theorem keepsConfig_rreg {p : Params} (h : p.Sound) (a : RegAddr) (v : Byte) :
    (Event.tx .adc (rregBytes p a) true [v]).KeepsConfig p := by
  intro c
  cases hd : decodeAdc p (rregBytes p a) with
  | error e => simp [Chip.see, hd]
  | ok i =>
    obtain ⟨b, rfl⟩ := decodeAdc_rregBytes h hd
    simp [Chip.see, hd, Chip.command_configBytes]

theorem keepsConfig_wreg {p : Params} (h : p.Sound) {a : RegAddr} (hlt : a.toNat < p.regCount)
    (hs : a ≠ p.regStatus) (ha : a ≠ p.regAdcon) (hd : a ≠ p.regDrate) (v : Byte) :
    (wregEvent p a v).KeepsConfig p := by
  intro c
  simp only [Chip.see, wregEvent, decodeAdc_wreg h hlt, Chip.command]
  split
  · rfl
  · exact Chip.writeReg_configBytes hs ha hd v c

/-- R85: a solo command other than RESET. -/
theorem keepsConfig_solo {p : Params} {b : Byte} {i : Instr} (hb : decodeSolo p b = some i)
    (hr : i ≠ .adcReset) (hw : ∀ a v, i ≠ .adcWreg a v) (gap : Bool) (inp : List Byte) :
    (Event.tx .adc [b] gap inp).KeepsConfig p := by
  intro c
  simp only [Chip.see, decodeAdc_solo hb]
  exact Chip.command_configBytes p c inp hr hw

theorem keepsConfig_rdata {p : Params} (h : p.Sound) (b0 b1 b2 : Byte) :
    (rdataEvent p b0 b1 b2).KeepsConfig p :=
  keepsConfig_solo (decodeSolo_solo h.soloNodup).2.1 (by simp) (by simp) _ _

/-- R114: the selection writes MUX only. -/
theorem keepsConfig_select {p : Params} (h : p.Sound) (m : ScanMode) (ch : Int) :
    ∀ e ∈ selectEvents p m ch, e.KeepsConfig p := by
  obtain ⟨hwake, -, -, -, -, hsync, -⟩ := decodeSolo_solo h.soloNodup
  obtain ⟨⟨hs, -⟩, ⟨ha, hd, -⟩, -⟩ := regs_ne h
  simp only [selectEvents, List.forall_mem_cons]
  exact ⟨keepsConfig_wreg h (h.addrLt _ (by simp [Params.regs])) hs ha.symm hd.symm _,
    keepsConfig_solo hsync (by simp) (by simp) _ _, fun _ => rfl,
    keepsConfig_solo hwake (by simp) (by simp) _ _, by simp⟩

theorem foldl_see_configBytes {p : Params} {evs : List Event} (h : ∀ e ∈ evs, e.KeepsConfig p)
    (c : Chip) : (evs.foldl (Chip.see p) c).configBytes = c.configBytes := by
  induction evs generalizing c with
  | nil => rfl
  | cons e es ih =>
    rw [List.forall_mem_cons] at h
    exact (ih h.2 _).trans (h.1 c)

/-- R70: what emits such events only is described as before. -/
theorem Emits.describes_eq {s t : State} (h : Emits (Event.KeepsConfig s.par) s t) (cfg : Cfg) :
    cfg.describes t.par (chipAfter t.par t.trace) = cfg.describes s.par (chipAfter s.par s.trace) := by
  obtain ⟨evs, ht, hevs⟩ := h.trace
  rw [h.par, ht, chipAfter_append]
  exact describes_congr (foldl_see_configBytes hevs _)

/-! ### The register file and the reference chip (R70, R178) -/

/-- R49: the STATUS_BYTE table has the buffer bit where this chip has BUFEN. -/
theorem fitsChip_status {p : Params} (h : fitsChip p = true) (b : BitVec 1) :
    (statusByte p b).extractLsb' 1 1 = b := by
  simp only [fitsChip, Bool.and_eq_true, beq_iff_eq] at h
  obtain ⟨⟨h0, h1⟩, -⟩ := h
  obtain rfl | rfl := BitVec.eq_zero_or_eq_one b
  · exact h0
  · exact h1

/-- R51: the ADCON_BYTE table has the gain code where this chip has PGA. -/
theorem fitsChip_adcon {p : Params} (h : fitsChip p = true) (g : GainCode) :
    (adconByte p g).extractLsb' 0 3 = g := by
  simp only [fitsChip, Bool.and_eq_true, List.all_eq_true, beq_iff_eq] at h
  exact h.2 g.toFin (List.mem_finRange _)

/-- R49, R92: BUFEN after a write of the STATUS byte. -/
theorem statusWritten_bufen {p : Params} (h : fitsChip p = true) (old : Byte) (b : BitVec 1) :
    (statusWritten old (statusByte p b)).extractLsb' 1 1 = b :=
  (extract_of_extract (d := 0) (m := 1) (statusWritten_writable old _) (by decide)).trans
    (fitsChip_status h b)

/-- The reset values of the chip are those of R56. -/
theorem describes_afterReset {p : Params} (h : p.Sound) {cfg : Cfg} (hg : cfg.gain = 0#3)
    (hd : cfg.drate = 0#4) (hb : cfg.bufen = 0#1) : cfg.describes p Chip.afterReset = true := by
  have hrate : drateByte p 0#4 = 0xF0#8 := h.drate0
  simp [Cfg.describes, Chip.afterReset, hg, hd, hb, hrate]

/-- R145: what HOST.CONFIGURE's three writes leave in the chip. -/
theorem describes_writes {p : Params} (h : p.wf = true) (hf : fitsChip p = true) {c : Chip}
    (hc : c.cont = false) {cfg : Cfg} : cfg.describes p (
      [wregEvent p p.regStatus (statusByte p cfg.bufen), wregEvent p p.regAdcon (adconByte p cfg.gain),
        wregEvent p p.regDrate (drateByte p cfg.drate)].foldl (Chip.see p) c) = true := by
  have hs := Params.sound h
  obtain ⟨⟨-, ha, hd, -⟩, ⟨ha', hd', -⟩, ⟨hda, -⟩, -⟩ := regs_ne hs
  have hlt : p.regStatus.toNat < p.regCount ∧ p.regAdcon.toNat < p.regCount ∧
      p.regDrate.toNat < p.regCount := by
    refine ⟨?_, ?_, ?_⟩ <;> exact hs.addrLt _ (by simp [Params.regs])
  simp only [List.foldl_cons, List.foldl_nil, wregEvent, Chip.see_wreg h, hlt, Chip.writeReg_cont, hc]
  simp [Chip.writeReg, Cfg.describes, ha, hd, ha', hd', hda, statusWritten_bufen hf, fitsChip_adcon hf]

/-- R70: the register file describes the reference chip of the trace. -/
def Described (s : State) : Prop := s.cfg.describes s.par (chipAfter s.par s.trace) = true

namespace Described

variable {s t : State}

theorem of_emits (h : Described s) (he : Emits (Event.KeepsConfig s.par) s t) (hc : t.cfg = s.cfg) :
    Described t := by
  rw [Described, hc, he.describes_eq]
  exact h

theorem respond (h : Described s) (st : Status) (pl : Payload) : Described (s.respond st pl) := h

theorem waitReady (h : Described s) (site : Site) (hsite : ∀ op slot, site ≠ .acq op slot) :
    Described (waitReady site s) :=
  h.of_emits ((Emits.refl s).waitReady (keepsConfig_poll s.par) hsite) (by simp)

/-- R152, R178: a reset pulse, with the defaults loaded. -/
theorem of_resetPulse (hp : s.par.wf = true) :
    Described ((resetPulse s).setContMode false).loadDefaults := by
  simp only [Described, State.loadDefaults, setCfg_trace, setContMode_trace, setCfg_par,
    setContMode_par, resetPulse_par, resetPulse_trace, chipAfter_append]
  exact describes_afterReset (Params.sound hp) rfl rfl rfl

/-- R105: the RESET command. -/
theorem resetCmd (hp : s.par.wf = true) : Described (resetCmd s) := by
  obtain ⟨-, -, -, -, -, -, hreset⟩ := decodeSolo_solo (Params.sound hp).soloNodup
  refine waitReady ?_ _ (by simp)
  simp only [Described, State.loadDefaults, setCfg_trace, setContMode_trace, setCfg_par,
    setContMode_par, sendCmd_state, chipAfter_append]
  simp only [cmdEvent, List.foldl_cons, List.foldl_nil, Chip.see, decodeAdc_solo hreset]
  exact describes_afterReset (Params.sound hp) rfl rfl rfl

/-- R151: HOST.INIT that ends READY has reset the chip and loaded the defaults. -/
theorem initRun (hp : s.par.wf = true) (hr : (initRun s).hstate = .ready) : Described (initRun s) := by
  cases ho : s.oracle.nextOpen
  · simp [initRun_of_closed ho] at hr
  · obtain ⟨k, evs, ws, o, -, hw, ht⟩ := initRun_of_open ho
    rw [ht] at hr ⊢
    split at hr
    · next hid =>
      have hs := Params.sound hp
      rw [if_pos hid]
      simp only [Described, chipAfter_append, List.foldl_cons, List.foldl_nil]
      rw [describes_congr (keepsConfig_rreg hs _ _ _),
        describes_congr (foldl_see_configBytes (hw.forall_events (keepsConfig_poll s.par)) _)]
      exact describes_afterReset hs rfl rfl rfl
    · cases hr

/-- R145: HOST.CONFIGURE outside continuous-read mode. -/
theorem configure (h : ContAgrees s) (hf : fitsChip s.par = true) (hc : s.contMode = false)
    (g : GainCode) (d : RateIndex) (b : BitVec 1) :
    Described ((configureBus g d b s).configured g d b) := by
  have hw := h.waitReady .configure
  have hcont := hw.2.trans ((waitReady_contMode s .configure).trans hc)
  have hwrites := describes_writes hw.1 (by simpa using hf) hcont
    (cfg := { s.cfg with gain := g, drate := d, bufen := b })
  rw [← chipAfter_append] at hwrites
  simp only [Described, State.configured, setCfg_cfg, setCfg_par, setCfg_trace, configureBus,
    waitReady_cfg, wReg1_cfg]
  exact ((Emits.refl _).waitReady (keepsConfig_poll _) (by simp)).describes_eq _ |>.trans
    (by simpa [wReg1_state] using hwrites)

/-- R85: a command HOST.WRITE_CMD sends. -/
theorem writeCmd {i : Instr} {c : Byte} (h : Described s) (hp : s.par.wf = true)
    (he : encode s.par i = .wire (.adc [c])) (hx : Machine.exec i s = .next t) : Described t := by
  have hr : Emits (Event.KeepsConfig s.par) s s := Emits.refl s
  have hs := Params.sound hp
  obtain ⟨hwake, -, hrdatac, hsdatac, hcal, hsync, -⟩ := decodeSolo_solo hs.soloNodup
  have hsend : ∀ {b j}, decodeSolo s.par b = some j → j ≠ .adcReset → (∀ a v, j ≠ .adcWreg a v) →
      Emits (Event.KeepsConfig s.par) s (sendCmd b s) := fun hb hj hw =>
    hr.sendCmd (keepsConfig_solo hb hj hw _ _)
  cases i with
  | adcWakeup => cases hx; exact h.of_emits (hsend hwake (by simp) (by simp)) (sendCmd_cfg s _)
  | adcRdata => cases hx; exact h.of_emits (hr.rData (keepsConfig_rdata hs)) (rData_cfg s)
  | adcRdatac =>
    cases hx
    exact h.of_emits ((hsend hrdatac (by simp) (by simp)).setContMode _) (sendCmd_cfg s s.par.cmdRdatac)
  | adcSdatac =>
    cases hx
    exact h.of_emits ((hsend hsdatac (by simp) (by simp)).setContMode _) (sendCmd_cfg s s.par.cmdSdatac)
  | adcSelfcal =>
    cases hx
    exact (h.of_emits (hsend hcal (by simp) (by simp)) (sendCmd_cfg s _)).waitReady _ (by simp)
  | adcSync => cases hx; exact h.of_emits (hsend hsync (by simp) (by simp)) (sendCmd_cfg s _)
  | adcReset => cases hx; exact resetCmd hp
  | _ => simp [encode, rregBytes, wregBytes] at he -- no one-byte frame

/-- R70: a host operation on a READY handle, a write of the described registers aside. -/
theorem exec {i : Instr} (h : Described s) (hc : ContAgrees s) (hf : fitsChip s.par = true)
    (hx : Machine.exec i s = .next t) (hi : i.isHost = true) (hr : s.hstate = .ready)
    (ht : t.hstate = .ready)
    (hreg : ∀ a v, i = .hostWriteReg a v → refusalOf s i = none →
      a ≠ s.par.regStatus ∧ a ≠ s.par.regAdcon ∧ a ≠ s.par.regDrate) : Described t := by
  have hs := Params.sound hc.1
  have he : Emits (Event.KeepsConfig s.par) s s := Emits.refl s
  have hpoll := keepsConfig_poll s.par
  cases exec_ran hx with
  | refused e => exact h.respond _ _
  | wire hw => rw [hi] at hw; cases hw
  | init hne => exact absurd hr hne
  | reset => exact ((of_resetPulse hc.1).waitReady _ (by simp)).respond _ _
  | shutdown => cases ht
  | configure d b _ _ hquiet => exact (configure hc hf hquiet _ d b).respond _ _
  | setScanMode => exact h -- the scan mode is none of what it describes
  | getConfig => exact h.respond _ _
  | readChannel ch =>
    exact (h.of_emits (he.acquire (by decide) (by decide) (fun _ => ⟨rfl, rfl⟩) (keepsConfig_select hs)
      hpoll (keepsConfig_rdata hs)) (acquire_cfg s (by decide) _ _ ch)).respond _ _
  | scan _ hl hn =>
    exact (h.of_emits (he.scanRun hn hl (keepsConfig_select hs) hpoll (keepsConfig_rdata hs))
      (scanRun_cfg s hn hl)).respond _ _
  | writeCmd _ _ _ hcmd hu => exact (h.writeCmd hc.1 hcmd hu).respond _ _
  | @writeReg a v _ ha hquiet =>
    have hlt : a.toNat < s.par.regCount := of_decide_eq_true ha
    obtain ⟨hst, had, hdr⟩ := hreg a v rfl
      (by simp [refusalOf, needsHandle, Instr.wellFormed, needsQuiet, hr, hlt, hquiet])
    exact (h.of_emits (he.wReg1 (keepsConfig_wreg hs hlt hst had hdr v)) (wReg1_cfg s a v)).respond _ _
  | readReg => exact (h.of_emits (he.rReg1 (keepsConfig_rreg hs _)) (rReg1_cfg s _)).respond _ _
  | @dacWrite _ d code =>
    exact (h.of_emits ((he.dacFrame (keepsConfig_dac s.par d code)).quiet (by simp) (by simp) (by simp)
      (by simp)) (by simp)).respond _ _
  | dacInvalid => exact h
  | perfBegin => exact h
  | perfReport =>
    obtain ⟨m, o, hm⟩ := refreshed_frame s
    exact hm ▸ h
  | voltage => exact h.respond _ _

end Described

/-- R12: a refusal's status is the last response's. -/
theorem getLast?_refuse (s : State) (e : Status) :
    (s.refuse e).responses.getLast?.map (·.status) = some e := by simp

/-- R107: HOST.WRITE_CMD of RESET is admitted in continuous-read mode too. -/
theorem exec_hostWriteCmd_reset {s : State} (hp : s.par.wf = true) (hr : s.hstate = .ready) :
    exec (.hostWriteCmd s.par.cmdReset) s = .next ((resetCmd s).respond .ok .none) := by
  have hn := (Params.sound hp).soloNodup
  simp only [Params.soloBytes, List.nodup_cons, List.mem_cons, not_or] at hn
  obtain ⟨⟨-, -, -, -, -, h1, -⟩, -, ⟨-, -, -, h2, -⟩, ⟨-, -, h3, -⟩, ⟨-, h4, -⟩, ⟨h5, -⟩, -⟩ := hn
  simp [exec, execHostWriteCmd, whenReady_of_ready hr, whenLegal, admittedCmd, endsContMode, runCmd,
    Ne.symm h1, Ne.symm h2, Ne.symm h3, Ne.symm h4, Ne.symm h5]

/-- R25: the handle an operation other than HOST.INIT leaves READY was READY. -/
theorem ready_of_exec {i : Instr} {s t : State} (hi : i ≠ .hostInit) (hx : exec i s = .next t)
    (ht : t.hstate = .ready) : s.hstate = .ready := by
  rcases lifecycleMovesOnlyByInitAndShutdown i s t hx with hh | ⟨rfl, -⟩ | ⟨-, hh⟩
  · exact hh.symm.trans ht
  · exact absurd rfl hi
  · rw [hh] at ht; cases ht

namespace Described

variable {s t : State}

/-- R151: HOST.INIT that answers OK was not refused. -/
theorem of_hostInit (hp : s.par.wf = true) (hx : Machine.exec .hostInit s = .next t)
    (ht : t.hstate = .ready) (hok : t.responses.getLast?.map (·.status) = some .ok) : Described t := by
  cases hx
  by_cases hr : s.hstate = .ready
  · rw [if_pos hr, getLast?_refuse] at hok; cases hok
  · rw [if_neg hr] at ht ⊢
    exact initRun hp ht

theorem of_hostReset (hp : s.par.wf = true) (hx : Machine.exec .hostReset s = .next t)
    (ht : t.hstate = .ready) : Described t := by
  have hr := ready_of_exec (by simp) hx ht
  cases hx
  rw [whenReady_of_ready hr]
  exact ((of_resetPulse hp).waitReady _ (by simp)).respond _ _

theorem of_hostWriteCmd_reset (hp : s.par.wf = true)
    (hx : Machine.exec (.hostWriteCmd s.par.cmdReset) s = .next t) (ht : t.hstate = .ready) :
    Described t := by
  rw [exec_hostWriteCmd_reset hp (ready_of_exec (by simp) hx ht)] at hx
  cases hx
  exact (resetCmd hp).respond _ _

/-- R145: HOST.CONFIGURE that answers OK was refused for no reason. -/
theorem of_hostConfigure {g : GainCode} {d : RateIndex} {b : BitVec 1} (hc : ContInv s)
    (hf : fitsChip s.par = true) (hx : Machine.exec (.hostConfigure g d b) s = .next t)
    (ht : t.hstate = .ready) (hok : t.responses.getLast?.map (·.status) = some .ok) : Described t := by
  have hr := ready_of_exec (by simp) hx ht
  cases hx
  rw [whenReady_of_ready hr] at hok ⊢
  cases hg : validGainCode g
  · rw [hg, whenLegal_false, getLast?_refuse] at hok; cases hok
  · rw [hg, whenLegal_true] at hok
    rw [whenLegal_true]
    cases hq : s.contMode
    · rw [whenNotCont_of_false hq]
      exact (configure (hc.agrees hr) hf hq g d b).respond _ _
    · rw [whenNotCont_of_true hq, getLast?_refuse] at hok; cases hok

end Described

/-- Settles O50: the operations that load or reset the chip's registers with the file's, then the ones that
leave both. -/
theorem registerFileDescribesChip : Obligations.RegisterFileDescribesChip := by
  unfold Obligations.RegisterFileDescribesChip
  intro s t i hc _ hf hx hi ht
  refine ⟨fun hcase hok => ?_, fun hreg hr h =>
    Described.exec h (hc.agrees hr) hf hx hi hr ht hreg⟩
  rcases hcase with rfl | rfl | rfl | ⟨g, d, b, rfl⟩
  · exact Described.of_hostInit hc.1 hx ht hok
  · exact Described.of_hostReset hc.1 hx ht
  · exact Described.of_hostWriteCmd_reset hc.1 hx ht
  · exact Described.of_hostConfigure hc hf hx ht hok

end Sys2Proof.Machine
end

section
/-! SUPPORT. Proofs of the statements of spec/30_encoding.md: every frame that decodes and the round trip of
both interfaces, the words of the opcode table, the value of a raw sample, and the pseudo-operations. -/

namespace Sys2Proof.Machine

/-! ### The frames that decode (R83 to R88, R93) -/

/-- R88, R93: an address decodes from the low nibble, under a count byte 0. -/
theorem decodeRegister_eq_ok {p : Params} {first count : Byte} {a : RegAddr}
    (h : decodeRegister p first count = .ok a) : count = countByte ∧ a = loNibble first := by
  unfold decodeRegister at h
  split_ifs at h with hhi hlo _
  cases h
  exact ⟨byte_of_nibbles (not_not.mp hhi) (not_not.mp hlo), rfl⟩

/-- `decodeRegister_eq_ok` under a register command. -/
theorem map_decodeRegister_eq_ok {p : Params} {first count : Byte} {f : RegAddr → Instr} {i : Instr}
    (h : (decodeRegister p first count).map f = .ok i) :
    count = countByte ∧ (loNibble first).toNat < p.regCount ∧ i = f (loNibble first) := by
  cases hr : decodeRegister p first count with
  | error e => rw [hr] at h; cases h
  | ok a =>
    rw [hr] at h
    cases h
    obtain ⟨hc, rfl⟩ := decodeRegister_eq_ok hr
    exact ⟨hc, decodeRegister_lt hr, rfl⟩

/-- R83 to R85, R93: an ADC frame that decodes is a solo byte, an RREG or a WREG of one register. -/
theorem decodeAdc_cases {p : Params} {bytes : List Byte} {i : Instr} (h : decodeAdc p bytes = .ok i) :
    (∃ b, decodeSolo p b = some i ∧ bytes = [b]) ∨
    (∃ first, hiNibble first = hiNibble p.cmdRreg ∧ (loNibble first).toNat < p.regCount ∧
      bytes = [first, countByte] ∧ i = .adcRreg (loNibble first)) ∨
    (∃ first v, hiNibble first = hiNibble p.cmdWreg ∧ (loNibble first).toNat < p.regCount ∧
      bytes = [first, countByte, v] ∧ i = .adcWreg (loNibble first) v) := by
  unfold decodeAdc at h
  split at h
  · cases h
  · next first rest =>
    split at h
    · next j hj =>
      split_ifs at h with hr
      cases h
      exact .inl ⟨first, hj, by rw [hr]⟩
    · split_ifs at h with hR hW
      · split at h
        · obtain ⟨rfl, hlt, rfl⟩ := map_decodeRegister_eq_ok h
          exact .inr (.inl ⟨first, hR, hlt, rfl, rfl⟩)
        · cases h
      · split at h
        · obtain ⟨rfl, hlt, rfl⟩ := map_decodeRegister_eq_ok h
          exact .inr (.inr ⟨first, _, hW, hlt, rfl, rfl⟩)
        · cases h

/-- R87, R93: a DAC frame that decodes is a control byte and a code. -/
theorem decodeDac_cases {p : Params} {bytes : List Byte} {i : Instr} (h : decodeDac p bytes = .ok i) :
    (∃ code, bytes = dacBytes p.dacCtrlA code ∧ i = .dacWriteA code) ∨
    (∃ code, bytes = dacBytes p.dacCtrlB code ∧ i = .dacWriteB code) := by
  unfold decodeDac at h
  split at h
  · cases h
  · split_ifs at h with hA hB
    · split at h
      · cases h; exact .inl ⟨_, by rw [dacBytes_append, hA], rfl⟩
      · cases h
    · split at h
      · cases h; exact .inr ⟨_, by rw [dacBytes_append, hB], rfl⟩
      · cases h

theorem decodeDac_writeA (p : Params) (c : DacCode) :
    decodeDac p (dacBytes p.dacCtrlA c) = .ok (.dacWriteA c) := by
  simp [decodeDac, dacBytes, append_extract]

theorem decodeDac_writeB {p : Params} (h : p.dacCtrlA ≠ p.dacCtrlB) (c : DacCode) :
    decodeDac p (dacBytes p.dacCtrlB c) = .ok (.dacWriteB c) := by
  simp [decodeDac, dacBytes, append_extract, h.symm]

/-- R86, R93: a byte that is no solo command and has no register command's high nibble starts no frame. -/
theorem decodeAdc_notEmitted {p : Params} {b : Byte} (hs : b ∉ p.soloBytes)
    (hr : hiNibble b ≠ hiNibble p.cmdRreg) (hw : hiNibble b ≠ hiNibble p.cmdWreg) (rest : List Byte) :
    decodeAdc p (b :: rest) = .error (.notEmitted b) := by
  simp [decodeAdc, decodeSolo_none hs, hr, hw]

/-! ### The round trip of each interface (R80, R83) -/

/-- R80: a scan mode is what its mode field says. -/
@[simp] theorem scanModeOfBit_bitOfScanMode (m : ScanMode) : scanModeOfBit (bitOfScanMode m) = m := by
  cases m <;> rfl

/-- R80: a request of a host operation's tag with its operands spells it (log 12). -/
theorem decode_encode_of_isHost (p : Params) {i : Instr} (hi : i.isHost = true) :
    decode p (encode p i) = .ok i := by
  cases i with
  | hostSetScanMode m => exact congrArg (Except.ok ∘ Instr.hostSetScanMode) (scanModeOfBit_bitOfScanMode m)
  | adcWakeup | adcRdata | adcRdatac | adcSdatac | adcRreg | adcWreg | adcSelfcal | adcSync | adcReset
  | dacWriteA | dacWriteB => cases hi
  | _ => rfl

/-- R83 to R88: the frame of a well-formed wire command spells it. -/
theorem decode_encode_of_wire {p : Params} (h : p.Sound) {i : Instr} (hi : i.isHost = false)
    (hf : i.wellFormed p = true) : decode p (encode p i) = .ok i := by
  obtain ⟨hwakeup, hrdata, hrdatac, hsdatac, hselfcal, hsync, hreset⟩ := decodeSolo_solo h.soloNodup
  cases i with
  | adcWakeup => exact decodeAdc_solo hwakeup
  | adcRdata => exact decodeAdc_solo hrdata
  | adcRdatac => exact decodeAdc_solo hrdatac
  | adcSdatac => exact decodeAdc_solo hsdatac
  | adcRreg a => exact decodeAdc_rreg h (of_decide_eq_true hf)
  | adcWreg a v => exact decodeAdc_wreg h (of_decide_eq_true hf) v
  | adcSelfcal => exact decodeAdc_solo hselfcal
  | adcSync => exact decodeAdc_solo hsync
  | adcReset => exact decodeAdc_solo hreset
  | dacWriteA c => exact decodeDac_writeA p c
  | dacWriteB c => exact decodeDac_writeB h.ctrlDiffer c
  | _ => cases hi -- the host operations

/-- Settles O1: the host operations by their tags, then the wire commands by their frames. -/
theorem decodeEncodeRoundTrip : Obligations.DecodeEncodeRoundTrip := by
  unfold Obligations.DecodeEncodeRoundTrip
  intro p i hp hf
  cases hi : i.isHost with
  | true => exact decode_encode_of_isHost p hi
  | false => exact decode_encode_of_wire (Params.sound hp) hi hf

/-- R84, R88: the bytes under either chip select are the ones the encoder writes. -/
theorem encode_of_decodeWire {p : Params} (h : p.Sound) {f : WireFrame} {i : Instr}
    (hd : decodeWire p f = .ok i) : encode p i = .wire f ∧ i.isHost = false := by
  cases f with
  | adc bytes =>
    rcases decodeAdc_cases hd with ⟨b, hb, rfl⟩ | ⟨first, hR, -, rfl, rfl⟩ | ⟨first, v, hW, -, rfl, rfl⟩
    · obtain ⟨-, he, -, hw⟩ := decodeSolo_some hb
      exact ⟨he, hw⟩
    · exact ⟨by rw [encode, rregBytes, regOpByte_loNibble h.rregLow hR], rfl⟩
    · exact ⟨by rw [encode, wregBytes, regOpByte_loNibble h.wregLow hW], rfl⟩
  | dac bytes =>
    rcases decodeDac_cases hd with ⟨c, rfl, rfl⟩ | ⟨c, rfl, rfl⟩ <;> exact ⟨rfl, rfl⟩

/-- Settles O2: the frame is canonical, and its instruction's address is a register's. -/
theorem wireFramesAreCanonical : Obligations.WireFramesAreCanonical := by
  unfold Obligations.WireFramesAreCanonical
  intro p f i hp hd
  obtain ⟨he, hw⟩ := encode_of_decodeWire (Params.sound hp) hd
  exact ⟨he, decodeWire_wellFormed hd, hw⟩

/-- R86: the six further command bytes of the chip are not the block's. -/
theorem furtherCommands_not_emitted : ∀ b ∈ [0xF1#8, 0xF2#8, 0xF3#8, 0xF4#8, 0xFD#8, 0xFF#8],
    b ∉ Params.default.soloBytes ∧ hiNibble b ≠ hiNibble Params.default.cmdRreg ∧
      hiNibble b ≠ hiNibble Params.default.cmdWreg := by decide

/-- Settles O3: a frame of two bytes or more is a register frame of `decodeAdc_cases`, and a DAC frame is one
of `decodeDac_cases`. -/
theorem neverEmittedFramesAreRejected : Obligations.NeverEmittedFramesAreRejected := by
  unfold Obligations.NeverEmittedFramesAreRejected
  refine ⟨fun p first count rest i _ _ hd => ?_, fun p ctrl rest i hd => ?_, fun b hb => ?_⟩
  · rcases decodeAdc_cases hd with ⟨b, -, hb⟩ | ⟨_, -, hlt, hb, -⟩ | ⟨_, v, -, hlt, hb, -⟩ <;> cases hb
    · exact ⟨rfl, hlt⟩
    · exact ⟨rfl, hlt⟩
  · rcases decodeDac_cases hd with ⟨c, hb, -⟩ | ⟨c, hb, -⟩ <;> cases hb
    · exact .inl rfl
    · exact .inr rfl
  · obtain ⟨hs, hr, hw⟩ := furtherCommands_not_emitted b hb
    exact decodeAdc_notEmitted hs hr hw []

/-! ### The words of the opcode table (R80, R85, R87, log 6) -/

/-- Settles O4: the decoder run on the six words. -/
theorem sampleWordsDecode : Obligations.SampleWordsDecode := by
  unfold Obligations.SampleWordsDecode
  exact ⟨rfl, rfl, rfl, rfl, rfl, rfl⟩

/-! ### The value of a raw sample (R90) -/

/-- R61: the code of three response bytes, the first the most significant. -/
theorem sampleCode_toNat (b0 b1 b2 : Byte) :
    (b0 ++ b1 ++ b2 : BitVec 24).toNat = b0.toNat * 65536 + b1.toNat * 256 + b2.toNat := by
  have h : (b0 ++ b1 ++ b2 : BitVec (16 + 8)).toNat = (b0 ++ b1 : BitVec 16).toNat <<< 8 ||| b2.toNat :=
    BitVec.toNat_append ..
  rw [show (b0 ++ b1 ++ b2 : BitVec 24).toNat = _ from h, ← Nat.shiftLeft_add_eq_or_of_lt b2.isLt,
    Nat.shiftLeft_eq, append_toNat]
  omega

/-- R90: bit 23 of the code is bit 7 of the first byte. -/
theorem sampleCode_msb (b0 b1 b2 : Byte) : (b0 ++ b1 ++ b2 : BitVec 24).msb = b0[7] := by
  have h₁ : (b0 ++ b1 ++ b2 : BitVec (16 + 8)).msb = (b0 ++ b1 : BitVec 16).msb := BitVec.msb_append
  have h₂ : (b0 ++ b1 : BitVec (8 + 8)).msb = b0.msb := BitVec.msb_append
  exact (h₁.trans h₂).trans (BitVec.msb_eq_getMsbD_zero b0)

/-- Settles O23: two's complement of the 24-bit code, and the container's range. -/
theorem sampleIsSignExtended : Obligations.SampleIsSignExtended := by
  unfold Obligations.SampleIsSignExtended
  intro b0 b1 b2
  refine ⟨?_, rawSample_range b0 b1 b2⟩
  rw [rawSample_toInt, BitVec.toInt_eq_msb_cond, sampleCode_msb, sampleCode_toNat]
  push_cast
  rfl

/-! ### Pseudo-operations (R94, R95) -/

/-- In a table without repetitions, an entry is found at its own place. -/
theorem findIdx?_of_nodup {α : Type} [DecidableEq α] {l : List α} (hl : l.Nodup) {k : Nat} {a : α}
    (h : l[k]? = some a) : l.findIdx? (· == a) = some k := by
  obtain ⟨hk, rfl⟩ := List.getElem?_eq_some_iff.mp h
  refine List.findIdx?_eq_some_iff_getElem.mpr ⟨hk, by simp, fun j hj => ?_⟩
  simpa [hl.getElem_inj_iff] using hj.ne

/-- R27, R94: a gain's multiplier names its code. -/
theorem gainCodeOf?_of_gainMult {g : GainCode} {m : Nat} (h : gainMult g = some m) :
    gainCodeOf? m = some g := by
  have hi : gainCodeOf? m = some (BitVec.ofNat 3 g.toNat) :=
    congrArg (Option.map (BitVec.ofNat 3)) (findIdx?_of_nodup (by decide) h)
  rwa [BitVec.ofNat_toNat, BitVec.setWidth_eq] at hi

/-- R29: no two rates are the same. -/
theorem drateSpsTable_nodup : drateSpsTable.toList.Nodup := by
  simp only [drateSpsTable, Vector.toList_mk]
  norm_num

/-- R29, R94: a rate's SPS value names its index. -/
theorem rateIndexOf?_drateSps (j : RateIndex) : rateIndexOf? (drateSps j) = some j := by
  have hj : drateSpsTable.toList[j.toNat]? = some (drateSps j) := by
    simp [drateSps, Vector.get, j.isLt]
  have hi : rateIndexOf? (drateSps j) = some (BitVec.ofNat 4 j.toNat) :=
    congrArg (Option.map (BitVec.ofNat 4)) (findIdx?_of_nodup drateSpsTable_nodup hj)
  rwa [BitVec.ofNat_toNat, BitVec.setWidth_eq] at hi

/-- Settles O6: the spellings by the tables, the rest as the expansion lists them. -/
theorem pseudoOperationsExpand : Obligations.PseudoOperationsExpand := by
  unfold Obligations.PseudoOperationsExpand
  refine fun p l c b => ⟨rfl, rfl, rfl, rfl, rfl, rfl, rfl, rfl, rfl, rfl, fun g m hg j => ?_, fun j => ?_⟩
  · simp [Pseudo.expand, gainCodeOf?_of_gainMult hg, rateIndexOf?_drateSps]
  · simp [Pseudo.expand, rateIndexOf?_drateSps]

end Sys2Proof.Machine
end

section
/-! SUPPORT. Proofs of the statements of spec/40_command_layer.md: the transactions of the nine ADC wire
commands, and the host operations that send one of them. -/

namespace Sys2Proof.Machine

/-! ### Commands that wait (R103, R105, R117) -/

/-- R103: SELFCAL is its byte and one wait. -/
theorem selfcalCmd_waits (s : State) : ∃ k evs ws o, selfcalCmd s = { s with
      acq := { s.acq with pollCnt := k }
      lines := s.lines.drive .adc .high
      trace := s.trace ++ [cmdEvent s.par.cmdSelfcal] ++ evs
      warnLog := s.warnLog ++ ws
      oracle := o } ∧
    s.oracle.WaitDraws o ∧ WaitShape s.par .low .selfcal k evs ws := by
  have h := waitReady_spec .selfcal (sendCmd s.par.cmdSelfcal s)
  rwa [← selfcalCmd, sendCmd_state] at h

/-- R105: RESET is its byte and one wait, and loads the defaults of R56. -/
theorem resetCmd_waits (s : State) : ∃ k evs ws o, resetCmd s = { s with
      cfg := ⟨0#3, 0#4, 0#1, s.cfg.scanMode⟩
      contMode := false
      acq := { s.acq with pollCnt := k }
      lines := s.lines.drive .adc .high
      trace := s.trace ++ [cmdEvent s.par.cmdReset] ++ evs
      warnLog := s.warnLog ++ ws
      oracle := o } ∧
    s.oracle.WaitDraws o ∧ WaitShape s.par .low .reset k evs ws := by
  have h := waitReady_spec .reset ((sendCmd s.par.cmdReset s).setContMode false).loadDefaults
  rwa [← resetCmd, sendCmd_state] at h

/-- Settles O11: the byte, then what one wait can do (`waitReady_spec`). -/
theorem selfcalAndResetWait : Obligations.SelfcalAndResetWait := by
  unfold Obligations.SelfcalAndResetWait
  intro s
  obtain ⟨k, evs, ws, o, hcal, hcalWait⟩ := selfcalCmd_waits s
  obtain ⟨k', evs', ws', o', hreset, hresetWait⟩ := resetCmd_waits s
  exact ⟨⟨k, evs, ws, o, congrArg Host.Outcome.next hcal, hcalWait⟩,
    ⟨k', evs', ws', o', congrArg Host.Outcome.next hreset, hresetWait⟩⟩

/-! ### Commands that are one transaction (R96 to R102, R104) -/

/-- Settles O9: each is one `sendCmd` or `wReg1`, and RDATAC and SDATAC write CONT_MODE. -/
theorem writeCommandsAreOneTransaction : Obligations.WriteCommandsAreOneTransaction := by
  unfold Obligations.WriteCommandsAreOneTransaction
  intro s a v
  refine ⟨?wakeup, ?sync, ?rdatac, ?sdatac, ?wreg⟩
  case wakeup => exact congrArg Host.Outcome.next (sendCmd_state s.par.cmdWakeup s)
  case sync => exact congrArg Host.Outcome.next (sendCmd_state s.par.cmdSync s)
  case rdatac =>
    exact congrArg (fun t : State => Host.Outcome.next (t.setContMode true))
      (sendCmd_state s.par.cmdRdatac s)
  case sdatac =>
    exact congrArg (fun t : State => Host.Outcome.next (t.setContMode false))
      (sendCmd_state s.par.cmdSdatac s)
  case wreg => exact congrArg Host.Outcome.next (wReg1_state a v s)

/-- Settles O10: `rData_exact` and `rReg1_state` name the bytes the outside answers. -/
theorem readCommandsAreOneGappedTransaction : Obligations.ReadCommandsAreOneGappedTransaction := by
  unfold Obligations.ReadCommandsAreOneGappedTransaction
  intro s a
  obtain ⟨-, hdata⟩ := rData_exact s
  exact ⟨⟨_, _, _, congrArg Host.Outcome.next hdata, rfl, rfl, rfl⟩,
    congrArg Host.Outcome.next (rReg1_state a s)⟩

/-! ### Host operations that send one command (R107 to R109) -/

/-- R107: the admitted bytes are the listed ones. -/
theorem admittedCmd_iff_mem {p : Params} {c : Byte} : admittedCmd p c = true ↔ c ∈ p.hostCmds := by
  simp [admittedCmd, Params.hostCmds, or_assoc]

/-- R107, R163: an admitted HOST.WRITE_CMD. -/
theorem exec_hostWriteCmd {s : State} {c : Byte} (hr : s.hstate = .ready)
    (ha : admittedCmd s.par c = true) (hc : s.contMode = false ∨ endsContMode s.par c = true) :
    exec (.hostWriteCmd c) s = .next ((runCmd c s).respond .ok .none) := by
  simp only [exec, execHostWriteCmd, whenReady_of_ready hr, ha, whenLegal_true]
  split
  · rfl
  · next hend => rw [whenNotCont_of_false (hc.resolve_right hend)]

/-- Settles O21: the byte runs the command it encodes (`runCmd_exec`), which is the one it decodes to. -/
theorem writeCmdIsTheWireCommand : Obligations.WriteCmdIsTheWireCommand := by
  unfold Obligations.WriteCmdIsTheWireCommand
  intro s c hp hr hmem hc
  have ha := admittedCmd_iff_mem.2 hmem
  obtain ⟨i, hi, he, hx⟩ := runCmd_exec ha
  have hd := decode_encode_of_wire (Params.sound hp) hi (wellFormed_of_encode_solo he)
  rw [he] at hd
  exact ⟨i, runCmd c s, hd, hx, exec_hostWriteCmd hr ha (hc.imp_right (by simp [endsContMode]))⟩

/-- Settles O22: an admitted access is one `wReg1` or `rReg1` and its response. -/
theorem registerAccessIsOneTransaction : Obligations.RegisterAccessIsOneTransaction := by
  unfold Obligations.RegisterAccessIsOneTransaction
  intro s a v hr hc ha
  rw [exec_hostWriteReg hr hc ha, exec_hostReadReg hr hc ha, wReg1_state, rReg1_state]
  exact ⟨rfl, rfl⟩

end Sys2Proof.Machine
end

section
/-! SUPPORT. Proofs of the statements of spec/41_conversion.md: the bounded wait under POLLS, HOST.READ_CHANNEL
of a valid and of an invalid index, and that every instruction answers a next state. -/

namespace Sys2Proof.Machine

/-! ### The wait under POLLS (R117) -/

/-- The state after k polls that found level `l`; `ls` are the levels left. -/
def State.polled (s : State) (l : Level) (k : Nat) (ls : List Level) : State :=
  { s with
    acq := { s.acq with pollCnt := s.acq.pollCnt + k }
    trace := s.trace ++ List.replicate k (.poll l)
    oracle := { s.oracle with levels := ls, levelsDrawn := s.oracle.levelsDrawn + k } }

theorem State.polled_polled (s : State) (l : Level) (j k : Nat) (ls ls' : List Level) :
    (s.polled l j ls).polled l k ls' = s.polled l (j + k) ls' := by
  simp [State.polled, Nat.add_assoc]

section
variable {s : State} {want : Level} {site : Site} {n : Nat} {ls : List Level}

/-- The poll finds the level: the wait is over. -/
theorem pollLoop_found (hl : s.oracle.levels = want :: ls) :
    pollLoop want site (n + 1) s = (.ready, (pollDrdy s).2) := by
  simp [pollLoop, pollDrdy_of_ready hl]

/-- The poll finds the other level: the wait goes on. -/
theorem pollLoop_again (hl : s.oracle.levels = want.other :: ls) :
    pollLoop want site (n + 1) s = pollLoop want site n (s.polled want.other 1 ls) := by
  simp [pollLoop, pollDrdy_of_ready hl, Level.other_ne, State.polled, State.countPoll, State.setAcq]

/-- A wait over k polls of the other level. -/
theorem pollLoop_others {k : Nat} (hl : s.oracle.levels = List.replicate k want.other ++ ls) :
    pollLoop want site (k + n) s = pollLoop want site n (s.polled want.other k ls) := by
  induction k generalizing s with
  | zero =>
    obtain rfl : s.oracle.levels = ls := hl
    simp [State.polled]
  | succ k ih =>
    calc pollLoop want site (k + 1 + n) s
      _ = pollLoop want site (k + n + 1) s := by rw [Nat.add_right_comm]
      _ = pollLoop want site (k + n) (s.polled want.other 1 (List.replicate k want.other ++ ls)) :=
          pollLoop_again hl
      _ = pollLoop want site n (s.polled want.other (k + 1) ls) := by
          rw [ih rfl, State.polled_polled, Nat.add_comm 1]

/-- R117: a wait under POLLS, once its first k polls have found the other level. -/
theorem waitFor_others {k : Nat} (hm : s.par.waitMode = .polls) (hn : s.par.pollLimit = k + n)
    (hl : s.oracle.levels = List.replicate k want.other ++ ls) :
    waitFor want site s =
      pollLoop want site n ((s.setAcq { s.acq with pollCnt := 0 }).polled want.other k ls) := by
  have hbegin : waitFor want site s =
      pollLoop want site (k + n) (s.setAcq { s.acq with pollCnt := 0 }) := by
    simp only [waitFor, hm, hn]
  exact hbegin.trans (pollLoop_others hl)

end

/-- Settles O13: the polls of the other level are taken one by one, then a poll of the level or the bound ends
the wait. -/
theorem waitsEndExactly : Obligations.WaitsEndExactly := by
  unfold Obligations.WaitsEndExactly
  intro s want site rest hm
  refine ⟨rfl, rfl, fun k hk hl => ?found, fun hl => ?bound⟩
  case found =>
    obtain ⟨n, hn⟩ : ∃ n, s.par.pollLimit = k + (n + 1) := ⟨s.par.pollLimit - k - 1, by omega⟩
    rw [waitFor_others hm hn hl, pollLoop_found rfl, pollDrdy_of_ready rfl]
    simp [State.polled, State.setAcq, Nat.add_assoc]
  case bound =>
    rw [waitFor_others hm (Nat.add_zero _).symm hl]
    simp [pollLoop, timeOut, State.polled, State.setAcq, State.warn]

/-! ### Indices (R110) -/

/-- R110: the valid indices of the two modes. -/
theorem validCh_iff {m : ScanMode} {ch : Int} :
    validCh m ch = true ↔ m = .se ∧ 0 ≤ ch ∧ ch < 8 ∨ m = .diff ∧ 0 ≤ ch ∧ ch < 4 := by
  simp only [validCh, Bool.and_eq_true, decide_eq_true_eq]
  cases m <;> simp [numCh, seChannels, diffChannels]

/-- R110: the invalid ones, negative indices included. -/
theorem validCh_eq_false_iff {m : ScanMode} {ch : Int} :
    validCh m ch = false ↔ ch < 0 ∨ m = .se ∧ 8 ≤ ch ∨ m = .diff ∧ 4 ≤ ch := by
  rw [Bool.eq_false_iff, Ne, validCh_iff]
  cases m <;> simp <;> omega

/-! ### An acquisition (R111 to R122) -/

/-- R113. -/
theorem acquire_of_valid {s : State} {ch : Int} (h : validCh s.cfg.scanMode ch = true) (op : AcqOp)
    (slot : Nat) (n : Byte) : acquire op slot ch n s = acquireValid op slot ch n s := if_pos h

/-- R111. -/
theorem acquire_of_invalid {s : State} {ch : Int} (h : validCh s.cfg.scanMode ch = false) (op : AcqOp)
    (slot : Nat) (n : Byte) : acquire op slot ch n s = (0#32, s.warn (.invalidChannel op slot ch)) :=
  if_neg (by simp [h])

/-- R114 to R116: from the channel's selection to the wake command, as a record update. -/
theorem wake_synchronize_selectChannel (mux : Byte) (s : State) :
    wake (synchronize (selectChannel mux s)) = { s with
      acq := { s.acq with phase := .converting }
      lines := s.lines.drive .adc .high
      trace := s.trace ++ [wregEvent s.par s.par.regMux mux, cmdEvent s.par.cmdSync, .delay s.par.t11Min,
        cmdEvent s.par.cmdWakeup] } := by
  simp [wake, wakeupCmd, synchronize, syncCmd, selectChannel, wReg1_state, sendCmd_state, delay,
    State.emit, State.setPhase, State.setAcq]

/-- R120: a settling of one Ready transition is one wait. -/
theorem settle_one (site : Site) (s : State) : ∃ k e w o, settle 1#8 site s = { s with
      acq := { s.acq with phase := .ready, settleN := 1#8, settleK := 1#8, pollCnt := k }
      trace := s.trace ++ e
      warnLog := s.warnLog ++ w
      oracle := o } ∧
    s.oracle.WaitDraws o ∧ WaitShape s.par .low site k e w := by
  obtain ⟨k, e, w, o, h, hd, hs⟩ :=
    waitReady_spec site (s.setAcq { s.acq with settleN := 1#8, settleK := 0#8 })
  refine ⟨k, e, w, o, ?_, hd, hs⟩
  calc settle 1#8 site s
    _ = observeReady site (s.setAcq { s.acq with settleN := 1#8, settleK := 0#8 }) := rfl
    _ = _ := by rw [observeReady, h]; rfl

/-- R122: the read of an acquisition, with the three bytes the outside answers next. -/
theorem readPhase_exact (s : State) :
    let b0 := s.oracle.nextByte
    let b1 := s.oracle.dropByte.nextByte
    let b2 := s.oracle.dropByte.dropByte.nextByte
    readPhase s = (rawSample b0 b1 b2, { s with
      acq := { s.acq with phase := .idle, lastSample := some (rawSample b0 b1 b2) }
      lines := s.lines.drive .adc .high
      oracle := s.oracle.dropByte.dropByte.dropByte
      trace := s.trace ++ [rdataEvent s.par b0 b1 b2] }) := by
  obtain ⟨hv, ht⟩ := rData_exact s
  simp [readPhase, hv, ht, State.setPhase, State.setAcq]

/-- A wait draws no byte: the next one is the same after it. -/
theorem Oracle.WaitDraws.nextByte {o o' : Oracle} (h : o.WaitDraws o') : o'.nextByte = o.nextByte := by
  obtain ⟨-, -, hb, hn, -⟩ := h
  simp only [Oracle.nextByte, hb, hn]

theorem Oracle.WaitDraws.lastTick_le {o o' : Oracle} (h : o.WaitDraws o') : o.lastTick ≤ o'.lastTick := by
  obtain ⟨-, -, -, -, ht⟩ := h
  exact ht

/-- What a wait leaves of the bytes is the same after one is drawn. -/
theorem Oracle.WaitDraws.dropByte {o o' : Oracle} (h : o.WaitDraws o') :
    o.dropByte.WaitDraws o'.dropByte := by
  obtain ⟨ho, hon, hb, hn, ht⟩ := h
  exact ⟨ho, hon, congrArg List.tail hb, congrArg (· + 1) hn, ht⟩

/-- R113 to R122: an acquisition with settling count 1 selects, synchronizes, wakes, waits once and reads. -/
theorem acquireValid_one (op : AcqOp) (slot : Nat) (ch : Int) (s : State) :
    let b0 := s.oracle.nextByte
    let b1 := s.oracle.dropByte.nextByte
    let b2 := s.oracle.dropByte.dropByte.nextByte
    ∃ k e w o, acquireValid op slot ch 1#8 s = (rawSample b0 b1 b2, { s with
        acq := ⟨.idle, 1#8, 1#8, k, some ch, some (muxCode s.par s.cfg.scanMode ch),
          some (rawSample b0 b1 b2)⟩
        lines := s.lines.drive .adc .high
        trace := s.trace ++ selectEvents s.par s.cfg.scanMode ch ++ e ++ [rdataEvent s.par b0 b1 b2]
        warnLog := s.warnLog ++ w
        oracle := o }) ∧
      WaitShape s.par .low (.acq op slot) k e w ∧ s.oracle.lastTick ≤ o.lastTick := by
  let mux := muxCode s.par s.cfg.scanMode ch
  let s₀ := s.setAcq { s.acq with ch := some ch, mux := some mux }
  have hsel := wake_synchronize_selectChannel mux s₀
  obtain ⟨k, e, w, o, hw, hd, hs⟩ := settle_one (.acq op slot) (wake (synchronize (selectChannel mux s₀)))
  rw [hsel] at hw hd hs
  refine ⟨k, e, w, o.dropByte.dropByte.dropByte, ?_, hs, hd.lastTick_le⟩
  simp only [acquireValid, hsel, hw, readPhase_exact, s₀, mux]
  simp [hd.nextByte, hd.dropByte.nextByte, hd.dropByte.dropByte.nextByte, selectEvents, s₀]

/-! ### HOST.READ_CHANNEL (R124) -/

/-- R124, R163: an admitted HOST.READ_CHANNEL. -/
theorem exec_hostReadChannel {s : State} (hr : s.hstate = .ready) (hc : s.contMode = false) (ch : Int) :
    exec (.hostReadChannel ch) s = .next ((acquire .readChannel 0 ch 1#8 s).2.respond .ok
      (.sample (acquire .readChannel 0 ch 1#8 s).1)) := by
  simp only [exec, execHostReadChannel, whenReady_of_ready hr, whenNotCont_of_false hc]

/-- Settles O25: the acquisition is `acquireValid_one`. -/
theorem readChannelAcquiresOnce : Obligations.ReadChannelAcquiresOnce := by
  unfold Obligations.ReadChannelAcquiresOnce
  intro s ch hr hc hch
  obtain ⟨k, e, w, o, hacq, hs, ht⟩ := acquireValid_one .readChannel 0 ch s
  refine ⟨k, e, w, _, _, _, o, ?_, hs, ht, rfl, rfl, rfl⟩
  rw [exec_hostReadChannel hr hc, acquire_of_valid (validCh_iff.2 hch), hacq]
  rfl

/-- Settles O26: the acquisition only warns (`acquire_of_invalid`). -/
theorem invalidChannelYieldsZero : Obligations.InvalidChannelYieldsZero := by
  unfold Obligations.InvalidChannelYieldsZero
  intro s ch hr hc hch
  have hacq := acquire_of_invalid (validCh_eq_false_iff.2 hch)
  refine ⟨?_, fun slot n => hacq .scanChannels slot n⟩
  rw [exec_hostReadChannel hr hc, hacq]
  rfl

/-! ### Every instruction completes (R119, R158, R166) -/

/-- R37: a scan has written every entry its answer reads. -/
theorem readResults_scanRun {l : List Int} {n : Byte} (hl : l.length ≤ maxScan) (hn : n ≠ 0#8) (s : State) :
    ∃ vs, readResults (scanRun l n s) l.length = some vs := by
  obtain ⟨a, evs, ws, vs, r, m, ls, o, ht, -, -, hs, -, -, hres, -⟩ := scanRun_spec hn hl s
  have hlen := hs.length
  refine ⟨vs, ?_⟩
  rw [← hlen, ht]
  exact ResultAfter.read hres (hlen ▸ hl)

/-- R125: HOST.SCAN_CHANNELS is refused, or answers what RESULT holds. -/
theorem execHostScanChannels_next (l : List Int) (n : Byte) (s : State) :
    ∃ t, execHostScanChannels l n s = .next t := by
  unfold execHostScanChannels
  split_ifs with hr hl hn hc
  · exact ⟨_, rfl⟩
  · exact ⟨_, rfl⟩
  · exact ⟨_, rfl⟩
  · exact ⟨_, rfl⟩
  · obtain ⟨vs, hv⟩ := readResults_scanRun (not_lt.1 hl) hn s
    exact ⟨(scanRun l n s).respond .ok (.samples vs), by simp only [scanRespond, hv]⟩

/-- Settles O8: every arm but the scan's is `.next` of a state, and the scan reads no unwritten entry. -/
theorem everyInstructionCompletes : Obligations.EveryInstructionCompletes := by
  unfold Obligations.EveryInstructionCompletes
  intro i s
  cases i with
  | hostScanChannels l n => exact execHostScanChannels_next l n s
  | _ => exact ⟨_, rfl⟩

end Sys2Proof.Machine
end

section
/-! SUPPORT. Proofs of the statements of spec/42_scanner.md: what the events and warnings of a scan count to
(R131, R133, R193), and the empty scan (R132). -/

namespace Sys2Proof.Machine

/-! ### What a piece of a scan counts to (R131, R133, R193) -/

/-- R133: what the statement of the scan's transactions counts, for the events and warnings of a part of a
scan: v selections with their wake command, d RDATA, and waits for the two levels. Parts add up
(`ScanTally.append`). -/
structure ScanTally (p : Params) (v d lows highs : Nat) (evs : List Event) (ws : List Warning) : Prop where
  muxWrites : countEvents (Event.isMuxWrite p) evs = v
  syncs : countEvents (Event.isCmd p.cmdSync) evs = v
  wakeups : countEvents (Event.isCmd p.cmdWakeup) evs = v
  rdatas : countEvents (Event.isRdata p) evs = d
  transactions :
    countEvents (fun e => !e.isPoll .low && !e.isPoll .high && !(e == .delay p.t11Min)) evs = 3 * v + d
  time : minTime p evs = v * p.t11Min + d * p.t6Min
  waits : ∃ waits : List ScanWait, (∀ w ∈ waits, w.Shape p) ∧
    evs.filter (fun e => e.isPoll .low || e.isPoll .high) = waits.flatMap (·.evs) ∧
    ws.filter Warning.isTimeout = waits.flatMap (·.ws) ∧
    waits.countP (·.level == .low) = lows ∧ waits.countP (·.level == .high) = highs
  lowEnds : highs = 0 → countEvents (Event.isPoll .low) evs + ws.countP Warning.isTimeout = lows

theorem countEvents_append (f : Event → Bool) (e₁ e₂ : List Event) :
    countEvents f (e₁ ++ e₂) = countEvents f e₁ + countEvents f e₂ := List.countP_append

theorem minTime_append (p : Params) (e₁ e₂ : List Event) :
    minTime p (e₁ ++ e₂) = minTime p e₁ + minTime p e₂ := by simp [minTime]

section
variable {p : Params} {v d lows highs v' d' lows' highs' : Nat} {evs e₁ e₂ : List Event}
  {ws w₁ w₂ : List Warning}

theorem ScanTally.append (h : ScanTally p v d lows highs e₁ w₁)
    (h' : ScanTally p v' d' lows' highs' e₂ w₂) :
    ScanTally p (v + v') (d + d') (lows + lows') (highs + highs') (e₁ ++ e₂) (w₁ ++ w₂) where
  muxWrites := by rw [countEvents_append, h.muxWrites, h'.muxWrites]
  syncs := by rw [countEvents_append, h.syncs, h'.syncs]
  wakeups := by rw [countEvents_append, h.wakeups, h'.wakeups]
  rdatas := by rw [countEvents_append, h.rdatas, h'.rdatas]
  transactions := by rw [countEvents_append, h.transactions, h'.transactions]; omega
  time := by rw [minTime_append, h.time, h'.time]; push_cast; ring
  waits := by
    obtain ⟨q, hshape, hevs, hws, hlow, hhigh⟩ := h.waits
    obtain ⟨q', hshape', hevs', hws', hlow', hhigh'⟩ := h'.waits
    refine ⟨q ++ q', List.forall_mem_append.2 ⟨hshape, hshape'⟩, ?_⟩
    simp only [List.filter_append, List.flatMap_append, List.countP_append, hevs, hevs', hws, hws', hlow,
      hlow', hhigh, hhigh', and_self]
  lowEnds hz := by
    have hends := h.lowEnds (by omega)
    have hends' := h'.lowEnds (by omega)
    rw [countEvents_append, List.countP_append]
    omega

/-- R111, R132: a part without an event, whose warnings are no timeouts. -/
theorem scanTally_nil (hws : ∀ w ∈ ws, w.isTimeout = false) : ScanTally p 0 0 0 0 [] ws where
  muxWrites := rfl
  syncs := rfl
  wakeups := rfl
  rdatas := rfl
  transactions := rfl
  time := by simp [minTime]
  waits := ⟨[], by simp, rfl, by simpa [List.filter_eq_nil_iff] using hws, rfl, rfl⟩
  lowEnds _ := by simpa [countEvents, List.countP_eq_zero] using hws

/-- R98: an RDATA is one transaction, with one gap. -/
theorem scanTally_rdataEvent (b0 b1 b2 : Byte) : ScanTally p 0 1 0 0 [rdataEvent p b0 b1 b2] [] where
  muxWrites := rfl
  syncs := by simp [countEvents, Event.isCmd, rdataEvent]
  wakeups := by simp [countEvents, Event.isCmd, rdataEvent]
  rdatas := by simp [countEvents, Event.isRdata, rdataEvent]
  transactions := by simp [countEvents, Event.isPoll, rdataEvent]
  time := by simp [minTime, Event.minTime, rdataEvent]
  waits := ⟨[], by simp, by simp [Event.isPoll, rdataEvent], rfl, rfl, rfl⟩
  lowEnds _ := by simp [countEvents, Event.isPoll, rdataEvent]

/-- R114 to R116: a selection is one multiplexer write, one SYNC, one WAKEUP and the delay of T11_MIN. -/
theorem scanTally_selectEvents (h : p.Sound) (m : ScanMode) (ch : Int) :
    ScanTally p 1 0 0 0 (selectEvents p m ch) [] := by
  have hne : p.cmdWakeup ≠ p.cmdSync := List.rel_of_pairwise_cons h.soloNodup (by simp)
  constructor
  case muxWrites =>
    simp [countEvents, selectEvents, wregEvent, wregBytes, cmdEvent, Event.isMuxWrite]
  case syncs => simp [countEvents, selectEvents, wregEvent, wregBytes, cmdEvent, Event.isCmd, hne]
  case wakeups => simp [countEvents, selectEvents, wregEvent, wregBytes, cmdEvent, Event.isCmd, hne.symm]
  case rdatas => simp [countEvents, selectEvents, wregEvent, wregBytes, cmdEvent, Event.isRdata]
  case transactions => simp [countEvents, selectEvents, wregEvent, cmdEvent, Event.isPoll]
  case time => simp [minTime, selectEvents, wregEvent, cmdEvent, Event.minTime]
  case waits =>
    exact ⟨[], by simp, by simp [selectEvents, wregEvent, cmdEvent, Event.isPoll], rfl, rfl, rfl⟩
  case lowEnds => simp [countEvents, selectEvents, wregEvent, cmdEvent, Event.isPoll]

/-! #### Waits (R117) -/

/-- Polls are no transactions and take no time of their own. -/
theorem countEvents_of_polls {f : Event → Bool} (h : ∀ e ∈ evs, ∃ l, e = .poll l)
    (hf : ∀ l, f (.poll l) = false) : countEvents f evs = 0 := by
  refine List.countP_eq_zero.2 fun e he => ?_
  obtain ⟨l, rfl⟩ := h e he
  simp [hf l]

theorem minTime_of_polls (h : ∀ e ∈ evs, ∃ l, e = .poll l) : minTime p evs = 0 := by
  refine List.sum_eq_zero fun q hq => ?_
  obtain ⟨e, he, rfl⟩ := List.mem_map.1 hq
  obtain ⟨l, rfl⟩ := h e he
  rfl

theorem filter_polls (h : ∀ e ∈ evs, ∃ l, e = .poll l) :
    evs.filter (fun e => e.isPoll .low || e.isPoll .high) = evs := by
  refine List.filter_eq_self.2 fun e he => ?_
  obtain ⟨l, rfl⟩ := h e he
  cases l <;> rfl

/-- R117: a wait ends at one poll of its level or in one timeout warning. -/
theorem WaitShape.ends_once {want : Level} {site : Site} {k : Nat} (h : WaitShape p want site k evs ws) :
    countEvents (Event.isPoll want) evs + ws.countP Warning.isTimeout = 1 := by
  rcases h with ⟨rfl, rfl, -⟩ | ⟨rfl, rfl, -⟩ <;>
    simp [countEvents, Event.isPoll, Warning.isTimeout, List.countP_replicate, Level.other_ne]

/-- R117, R131: a wait of a slot's settling appends nothing but polls and its timeout. -/
theorem WaitShape.scanTally {want : Level} {slot k : Nat}
    (h : WaitShape p want (.acq .scanChannels slot) k evs ws) :
    ScanTally p 0 0 (if want = .low then 1 else 0) (if want = .high then 1 else 0) evs ws := by
  have hpolls : ∀ e ∈ evs, ∃ l, e = .poll l := h.forall_events fun l => ⟨l, rfl⟩
  have htimeouts : ws.filter Warning.isTimeout = ws :=
    List.filter_eq_self.2 (h.forall_warnings rfl)
  constructor
  case muxWrites => exact countEvents_of_polls hpolls fun _ => rfl
  case syncs => exact countEvents_of_polls hpolls fun l => by simp [Event.isCmd]
  case wakeups => exact countEvents_of_polls hpolls fun l => by simp [Event.isCmd]
  case rdatas => exact countEvents_of_polls hpolls fun _ => rfl
  case transactions => exact countEvents_of_polls hpolls fun l => by cases l <;> simp [Event.isPoll]
  case time => simp [minTime_of_polls hpolls]
  case waits =>
    refine ⟨[⟨want, evs, ws⟩], List.forall_mem_singleton.2 ⟨slot, k, h⟩, ?_, ?_, ?_⟩
    · simpa using filter_polls hpolls
    · simpa using htimeouts
    · cases want <;> simp
  case lowEnds =>
    cases want
    · exact fun _ => h.ends_once
    · exact nofun

/-! #### Settling, acquisitions and scans (R120, R121, R125) -/

/-- R121: the RDATA of one discarded cycle. -/
def discardReads (p : Params) : Nat := if p.settleDiscardRead then 1 else 0

/-- R121: the waits for HIGH of one discarded cycle. -/
def discardHighs (p : Params) : Nat := if p.settleDiscardRead then 0 else 1

/-- R121: a discarded cycle is an RDATA with SETTLE_DISCARD_READ, a wait for HIGH without. -/
theorem DiscardShape.scanTally {slot : Nat} (h : DiscardShape p (.acq .scanChannels slot) evs ws) :
    ScanTally p 0 (discardReads p) 0 (discardHighs p) evs ws := by
  unfold DiscardShape at h
  unfold discardReads discardHighs
  split_ifs at h ⊢
  · obtain ⟨b0, b1, b2, rfl, rfl⟩ := h
    exact scanTally_rdataEvent b0 b1 b2
  · obtain ⟨k, h⟩ := h
    exact h.scanTally

/-- R120: a settling of n + 1 Ready transitions is n + 1 waits for LOW with n discarded cycles between. -/
theorem SettleShape.scanTally {slot n : Nat}
    (h : SettleShape p (.acq .scanChannels slot) (n + 1) evs ws) :
    ScanTally p 0 (n * discardReads p) (n + 1) (n * discardHighs p) evs ws := by
  induction n generalizing evs ws with
  | zero =>
    obtain ⟨k, h⟩ := h
    simpa using h.scanTally
  | succ n ih =>
    obtain ⟨k, e₁, w₁, e₂, w₂, e₃, w₃, hwait, hdiscard, hrest, rfl, rfl⟩ := h
    have hsum := (hwait.scanTally.append hdiscard.scanTally).append (ih hrest)
    simp only [reduceCtorEq, if_true, if_false] at hsum
    convert hsum using 1
    all_goals ring

/-- R113: an acquisition of a valid index is a selection, its settling and the final read. -/
theorem AcqShape.scanTally_of_valid (hp : p.Sound) {m : ScanMode} {slot n : Nat} {ch : Int} {x : Sample}
    (h : AcqShape p m .scanChannels slot ch (n + 1) evs ws x) (hv : validCh m ch = true) :
    ScanTally p 1 (n * discardReads p + 1) (n + 1) (n * discardHighs p) evs ws := by
  unfold AcqShape at h
  rw [if_pos hv] at h
  obtain ⟨e, b0, b1, b2, hsettle, rfl, -⟩ := h
  have hsum := ((scanTally_selectEvents hp m ch).append hsettle.scanTally).append
    (scanTally_rdataEvent b0 b1 b2)
  simpa only [Nat.zero_add, Nat.add_zero, List.nil_append, List.append_nil] using hsum

/-- R111: an acquisition of an invalid index counts to nothing. -/
theorem AcqShape.scanTally_of_invalid {m : ScanMode} {op : AcqOp} {slot n : Nat} {ch : Int} {x : Sample}
    (h : AcqShape p m op slot ch n evs ws x) (hv : ¬validCh m ch = true) :
    ScanTally p 0 0 0 0 evs ws := by
  unfold AcqShape at h
  rw [if_neg hv] at h
  obtain ⟨rfl, rfl, -⟩ := h
  exact scanTally_nil (List.forall_mem_singleton.2 rfl)

/-- R125, R133: a scan counts to as many acquisitions as its list has valid entries. -/
theorem ScanShape.scanTally (hp : p.Sound) {m : ScanMode} {n i : Nat} {l : List Int} {vs : List Sample}
    (h : ScanShape p m (n + 1) i l evs ws vs) :
    let v := l.countP (validCh m ·)
    ScanTally p v (v * (n * discardReads p + 1)) (v * (n + 1)) (v * (n * discardHighs p)) evs ws := by
  dsimp only
  induction l generalizing i evs ws vs with
  | nil =>
    obtain ⟨rfl, rfl, -⟩ := h
    simpa using scanTally_nil (p := p) (ws := []) nofun
  | cons ch rest ih =>
    obtain ⟨e₁, w₁, x, e₂, w₂, xs, hacq, hrest, rfl, rfl, -⟩ := h
    by_cases hv : validCh m ch = true
    · have hsum := (hacq.scanTally_of_valid hp hv).append (ih hrest)
      rw [List.countP_cons_of_pos hv]
      convert hsum using 1
      all_goals ring
    · have hsum := (hacq.scanTally_of_invalid hv).append (ih hrest)
      rw [List.countP_cons_of_neg hv]
      simpa only [Nat.zero_add] using hsum

end

/-! ### HOST.SCAN_CHANNELS (R125, R132) -/

/-- R125, R163: an admitted HOST.SCAN_CHANNELS. -/
theorem exec_hostScanChannels {s : State} {l : List Int} {n : Byte} (hr : s.hstate = .ready)
    (hc : s.contMode = false) (hl : l.length ≤ maxScan) (hn : n ≠ 0#8) :
    exec (.hostScanChannels l n) s = scanRespond l.length (scanRun l n s) := by
  simp [exec, execHostScanChannels, hr, hc, hn, not_lt.2 hl]

/-- Settles O28: the scan's shape (`scanRun_spec`) counts to `ScanShape.scanTally`. -/
theorem scanTransactionCounts : Obligations.ScanTransactionCounts := by
  unfold Obligations.ScanTransactionCounts
  intro s l n hp hr hc hl hn
  obtain ⟨a, evs, ws, vs, r, m, ls, o, hrun, -, -, hs, -⟩ := scanRun_spec hn hl s
  obtain ⟨answers, hread⟩ := readResults_scanRun hl hn s
  obtain ⟨k, hk⟩ : ∃ k, n.toNat = k + 1 :=
    Nat.exists_eq_add_one_of_ne_zero fun hz => hn (BitVec.eq_of_toNat_eq hz)
  rw [hk] at hs ⊢
  have htally := hs.scanTally (Params.sound hp)
  refine ⟨(scanRun l n s).respond .ok (.samples answers), evs, ws, ?_, by rw [hrun]; rfl, by rw [hrun]; rfl,
    ?_⟩
  · rw [exec_hostScanChannels hr hc hl hn, scanRespond, hread]
  cases hd : s.par.settleDiscardRead with
  | false =>
    simp only [discardReads, discardHighs, hd, Bool.false_eq_true, if_false, mul_zero, mul_one,
      Nat.zero_add] at htally
    obtain ⟨hmux, hsync, hwake, hdata, htx, htime, hwaits, -⟩ := htally
    exact ⟨hmux, hsync, hwake, hdata, htx, htime, hwaits, nofun⟩
  | true =>
    simp only [discardReads, discardHighs, hd, if_true, mul_zero, mul_one] at htally
    obtain ⟨hmux, hsync, hwake, hdata, htx, htime, hwaits, hends⟩ := htally
    exact ⟨hmux, hsync, hwake, hdata, htx, htime, hwaits, fun _ => hends rfl⟩

/-- R132: an empty scan writes the scan registers and nothing else. -/
theorem scanRun_nil (n : Byte) (s : State) :
    scanRun [] n s = { s with scan := ⟨[], 0, 0, n, s.scan.result⟩ } := by
  simp [scanRun, scanLoop, scanStart, resultAtStart, State.setScanIdx, State.setScan]

/-- Settles O29: an empty scan reads no entry of RESULT and answers no samples. -/
theorem emptyScanDoesNothing : Obligations.EmptyScanDoesNothing := by
  unfold Obligations.EmptyScanDoesNothing
  intro s n hr hc hn
  rw [exec_hostScanChannels hr hc (Nat.zero_le _) hn, scanRun_nil]
  rfl

end Sys2Proof.Machine
end

section
/-! SUPPORT. Proofs of the statements of spec/43_perf_monitor.md: the derived fields and the classification
(R137, R138, R140, R141), what a begin call, a report and a scan leave in the monitor (R135, R136, R139), and
that no other part of the block reads it (R134). -/

namespace Sys2Proof.Machine

/-! ### Derive and Classify (R137, R138, R141) -/

theorem elapsed_pos {p : Params} {m : Mon} {t : Nat} (hp : 0 < p.tickHz) (ht : m.start < t) :
    0 < elapsed p m t :=
  div_pos (sub_pos.2 (Nat.cast_lt.2 ht)) (Nat.cast_pos.2 hp)

/-- R137, R141: samples at r per elapsed second are a total rate of r. -/
theorem spsTotalAt_of_rate {p : Params} {m : Mon} {t : Nat} {r : Rat} (he : 0 < elapsed p m t)
    (hr : (m.samples : Rat) = r * elapsed p m t) : spsTotalAt p m t = r := by
  rw [spsTotalAt, if_pos he, hr, mul_div_cancel_right₀ _ he.ne']

/-- Settles O35. -/
theorem constantRateHasConstantEfficiency : Obligations.ConstantRateHasConstantEfficiency := by
  unfold Obligations.ConstantRateHasConstantEfficiency
  intro p m t r hp ht hn htheo hr
  have htotal : spsTotalAt p m t = r := spsTotalAt_of_rate (elapsed_pos hp ht) hr
  refine ⟨htotal, ?_⟩
  change effAt p m t = _
  rw [effAt, if_pos htheo, spsChAt, if_pos hn, htotal]

/-- Settles O33: one case per branch of Classify. -/
theorem classificationIsStrict : Obligations.ClassificationIsStrict := by
  unfold Obligations.ClassificationIsStrict
  refine ⟨⟨rfl, rfl, rfl⟩, fun p samples eff h85 h70 h50 => ?_⟩
  unfold classify
  rw [h85, h70, h50]
  split_ifs with hs h₁ h₂ h₃ <;> grind

/-! ### HOST.PERF_BEGIN and HOST.PERF_REPORT (R135, R139, R140) -/

/-- Settles O31. -/
theorem perfBeginRestartsTheMonitor : Obligations.PerfBeginRestartsTheMonitor := by
  unfold Obligations.PerfBeginRestartsTheMonitor
  exact fun s _ => ⟨rfl, s.oracle.lastTick_le_nextTick 0⟩

theorem refreshed_of_active {s : State} (h : s.mon.active = true) : refreshed s = deriveNow s := if_pos h

theorem refreshed_of_inactive {s : State} (h : s.mon.active = false) : refreshed s = s := by
  simp [refreshed, h]

/-- Settles O32: an inactive monitor is reported as it is, an active one after Derive. -/
theorem perfReportIsReadOnly : Obligations.PerfReportIsReadOnly := by
  unfold Obligations.PerfReportIsReadOnly
  intro s
  refine ⟨_, rfl, ?_⟩
  cases ha : s.mon.active with
  | false =>
    rw [refreshed_of_inactive ha]
    exact ⟨rfl, rfl, fun _ => ⟨rfl, rfl⟩, nofun⟩
  | true =>
    rw [refreshed_of_active ha]
    exact ⟨rfl, rfl, nofun, fun _ => ⟨rfl, ha, rfl, rfl, rfl, rfl, rfl, rfl, rfl, rfl, rfl⟩⟩

/-- R140: what the monitor's invariant says of a monitor without samples. -/
theorem MonInv.idle {s : State} (h : MonInv s) (hs : s.mon.samples = 0) :
    s.mon.eff = 0 ∧ s.mon.status = .noData :=
  ⟨(h.noSamples hs).2.2, by rw [h.classified, hs]; rfl⟩

/-- R139: a refresh writes no counter. -/
theorem refreshed_samples (s : State) : (refreshed s).mon.samples = s.mon.samples := by
  unfold refreshed; split <;> rfl

/-- Settles O34: the refresh of a report keeps the monitor's invariant and the number of samples. -/
theorem noSamplesNoEfficiency : Obligations.NoSamplesNoEfficiency := by
  unfold Obligations.NoSamplesNoEfficiency
  intro s h hs
  obtain ⟨heff, hstatus⟩ := h.idle hs
  exact ⟨heff, hstatus, _, rfl, h.refreshed.idle ((refreshed_samples s).trans hs)⟩

/-! ### A monitored scan (R132, R136, R137) -/

/-- Settles O30: `scanRun_spec` says that the scan ends with its record, taken at the clock's last answer. -/
theorem scanIsRecordedOnce : Obligations.ScanIsRecordedOnce := by
  unfold Obligations.ScanIsRecordedOnce
  intro s l n hr hc hl hn
  obtain ⟨vs, hread⟩ := readResults_scanRun hl hn s
  obtain ⟨a, evs, ws, -, r, m, ls, o, hrun, -, ho, -, -, -, -, hm⟩ := scanRun_spec hn hl s
  refine ⟨(scanRun l n s).respond .ok (.samples vs), ?_, fun hidle => ?_, fun ha hne => ?_⟩
  · rw [exec_hostScanChannels hr hc hl hn, scanRespond, hread]
  · have hskip : ¬(0 < l.length ∧ s.mon.active = true) := by
      rintro ⟨hpos, ha⟩
      rcases hidle with hi | rfl
      · simp [hi] at ha
      · simp at hpos
    rw [hrun]
    exact hm.trans (if_neg hskip)
  · have hpos : 0 < l.length := List.length_pos_iff.2 hne
    obtain rfl : m = (s.mon.count l.length).derive s.par o.lastTick := hm.trans (if_pos ⟨hpos, ha⟩)
    rw [hrun]
    exact ⟨o.lastTick, ho, rfl, ha, rfl, rfl, rfl, rfl, rfl, rfl, if_pos hpos, rfl, rfl⟩

/-! ### What the monitor holds changes nothing else (R134) -/

section

variable (m : Mon)

/-! #### The waits and the settling, which loop -/

theorem pollLoop_setMon (want : Level) (site : Site) (left : Nat) (s : State) :
    (pollLoop want site left (s.setMon m)).2 = (pollLoop want site left s).2.setMon m := by
  induction left generalizing s with
  | zero => rfl
  | succ left ih =>
    unfold pollLoop
    rw [apply_ite Prod.snd, apply_ite Prod.snd, apply_ite (State.setMon · m)]
    exact ite_congr rfl (fun _ => rfl) fun _ => ih (pollDrdy s).2.countPoll

theorem deadlineLoop_setMon (want : Level) (site : Site) (t0 left : Nat) (s : State) :
    (deadlineLoop want site t0 left (s.setMon m)).2 = (deadlineLoop want site t0 left s).2.setMon m := by
  induction left generalizing s with
  | zero => rfl
  | succ left ih =>
    unfold deadlineLoop
    simp only [apply_ite Prod.snd, apply_ite (State.setMon · m)]
    exact ite_congr rfl (fun _ => rfl) fun _ => ite_congr rfl (fun _ => rfl) fun _ =>
      ih (pollDrdy (now s).2).2.countPoll

theorem waitFor_setMon (want : Level) (site : Site) (s : State) :
    (waitFor want site (s.setMon m)).2 = (waitFor want site s).2.setMon m := by
  unfold waitFor
  rw [setMon_par]
  cases s.par.waitMode
  · exact pollLoop_setMon m want site _ (s.setAcq { s.acq with pollCnt := 0 })
  · exact deadlineLoop_setMon m want site _ _ (now (s.setAcq { s.acq with pollCnt := 0 })).2

theorem waitReady_setMon (site : Site) (s : State) :
    waitReady site (s.setMon m) = (waitReady site s).setMon m := waitFor_setMon m .low site s

theorem observeReady_setMon (site : Site) (s : State) :
    observeReady site (s.setMon m) = (observeReady site s).setMon m := by
  unfold observeReady
  rw [waitReady_setMon]
  rfl

theorem discardCycle_setMon (site : Site) (s : State) :
    discardCycle site (s.setMon m) = (discardCycle site s).setMon m := by
  unfold discardCycle waitNotReady
  rw [waitFor_setMon, setMon_par]
  split <;> rfl

theorem settleLoop_setMon (site : Site) (left : Nat) (s : State) :
    settleLoop site left (s.setMon m) = (settleLoop site left s).setMon m := by
  induction left generalizing s with
  | zero => rfl
  | succ left ih =>
    unfold settleLoop
    rw [observeReady_setMon, discardCycle_setMon, ih]
    split <;> rfl

theorem settle_setMon (n : Byte) (site : Site) (s : State) :
    settle n site (s.setMon m) = (settle n site s).setMon m :=
  settleLoop_setMon m site n.toNat (s.setAcq { s.acq with settleN := n, settleK := 0#8 })

/-! #### Acquisitions and scans -/

theorem acquireValid_setMon (op : AcqOp) (slot : Nat) (ch : Int) (n : Byte) (s : State) :
    acquireValid op slot ch n (s.setMon m) =
      ((acquireValid op slot ch n s).1, (acquireValid op slot ch n s).2.setMon m) := by
  let mux := muxCode s.par s.cfg.scanMode ch
  let woken := wake (synchronize (selectChannel mux (s.setAcq { s.acq with ch := some ch, mux := some mux })))
  change readPhase (settle n (.acq op slot) (woken.setMon m)) = _
  rw [settle_setMon]
  rfl

theorem acquire_setMon (op : AcqOp) (slot : Nat) (ch : Int) (n : Byte) (s : State) :
    acquire op slot ch n (s.setMon m) =
      ((acquire op slot ch n s).1, (acquire op slot ch n s).2.setMon m) := by
  unfold acquire
  rw [setMon_cfg, acquireValid_setMon]
  split <;> rfl

theorem scanLoop_setMon (n : Byte) (i : Nat) (l : List Int) (s : State) :
    scanLoop n i l (s.setMon m) = (scanLoop n i l s).setMon m := by
  induction l generalizing i s with
  | nil => rfl
  | cons ch rest ih =>
    have hslot : scanSlot n i ch (s.setMon m) = (scanSlot n i ch s).setMon m := by
      unfold scanSlot
      rw [show (s.setMon m).setScanIdx i = (s.setScanIdx i).setMon m from rfl, acquire_setMon]
      rfl
    simp only [scanLoop, hslot, ih]

/-- R136: what follows a scan's slots writes the monitor and the clock's draws at most. -/
theorem scanRun_frame (l : List Int) (n : Byte) (s : State) : ∃ m' o, scanRun l n s =
    (((scanLoop n 0 l (scanStart l n s)).setScanIdx l.length).setMon m').setOracle o := by
  unfold scanRun
  dsimp only
  split
  · exact ⟨_, _, rfl⟩
  · exact ⟨_, _, rfl⟩

theorem scanRun_setMon (l : List Int) (n : Byte) (s : State) : ∃ m' o,
    scanRun l n (s.setMon m) = ((scanRun l n s).setMon m').setOracle o := by
  obtain ⟨m₁, o₁, h₁⟩ := scanRun_frame l n (s.setMon m)
  obtain ⟨m₂, o₂, h₂⟩ := scanRun_frame l n s
  refine ⟨m₁, o₁, ?_⟩
  rw [h₁, h₂, show scanStart l n (s.setMon m) = (scanStart l n s).setMon m from rfl, scanLoop_setMon]
  rfl

theorem execHostScanChannels_setMon {l : List Int} {n : Byte} {s t : State}
    (hx : execHostScanChannels l n s = .next t) : ∃ m' o,
    execHostScanChannels l n (s.setMon m) = .next ((t.setMon m').setOracle o) := by
  unfold execHostScanChannels at hx ⊢
  rw [setMon_hstate, setMon_contMode]
  split_ifs at hx ⊢
  · cases hx; exact ⟨_, _, rfl⟩
  · cases hx; exact ⟨_, _, rfl⟩
  · cases hx; exact ⟨_, _, rfl⟩
  · cases hx; exact ⟨_, _, rfl⟩
  · obtain ⟨m', o, hrun⟩ := scanRun_setMon m l n s
    let u := ((scanRun l n s).setMon m').setOracle o
    have hread : readResults u l.length = readResults (scanRun l n s) l.length :=
      readResults_congr (s := scanRun l n s) (t := u) rfl l.length
    refine ⟨m', o, ?_⟩
    unfold scanRespond at hx ⊢
    rw [hrun, hread]
    split at hx
    · cases hx; rfl
    · cases hx

theorem refreshed_setMon (s : State) : ∃ m' o,
    refreshed (s.setMon m) = ((refreshed s).setMon m').setOracle o := by
  obtain ⟨m₁, o₁, h₁⟩ := refreshed_frame (s.setMon m)
  obtain ⟨m₂, o₂, h₂⟩ := refreshed_frame s
  exact ⟨m₁, o₁, by rw [h₁, h₂]; rfl⟩

/-! #### Configuration, lifecycle, commands -/

theorem configureBus_setMon (g : GainCode) (d : RateIndex) (b : BitVec 1) (s : State) :
    configureBus g d b (s.setMon m) = (configureBus g d b s).setMon m := by
  have hw : ∀ (a : RegAddr) (v : Byte) (u : State), wReg1 a v (u.setMon m) = (wReg1 a v u).setMon m :=
    fun _ _ _ => rfl
  simp only [configureBus, waitReady_setMon, hw, setMon_par]

theorem initRun_setMon (s : State) : initRun (s.setMon m) = (initRun s).setMon m := by
  have hid : ∀ u : State, identify (u.setMon m) = ((identify u).1, (identify u).2.setMon m) := by
    intro u
    unfold identify
    rw [show resetPulse (holdLines (u.setMon m)) = (resetPulse (holdLines u)).setMon m from rfl,
      waitReady_setMon]
    rfl
  unfold initRun
  rw [show openTransport (s.setMon m) = ((openTransport s).1, (openTransport s).2.setMon m) from rfl]
  simp only [hid, apply_ite (State.setMon · m)]
  exact ite_congr rfl (fun _ => ite_congr rfl (fun _ => rfl) fun _ => rfl) fun _ => rfl

theorem selfcalCmd_setMon (s : State) : selfcalCmd (s.setMon m) = (selfcalCmd s).setMon m :=
  waitReady_setMon m .selfcal (sendCmd s.par.cmdSelfcal s)

theorem resetCmd_setMon (s : State) : resetCmd (s.setMon m) = (resetCmd s).setMon m :=
  waitReady_setMon m .reset ((sendCmd s.par.cmdReset s).setContMode false).loadDefaults

theorem runCmd_setMon (c : Byte) (s : State) : runCmd c (s.setMon m) = (runCmd c s).setMon m := by
  unfold runCmd
  rw [setMon_par]
  split_ifs
  · rfl
  · rfl
  · exact selfcalCmd_setMon m s
  · rfl
  · rfl
  · exact resetCmd_setMon m s
  · rfl

/-! #### Every instruction -/

theorem whenReady_setMon {s : State} {body : State → State} (h : body (s.setMon m) = (body s).setMon m) :
    whenReady (s.setMon m) body = (whenReady s body).setMon m := by
  unfold whenReady
  rw [setMon_hstate, h]
  split <;> rfl

theorem whenLegal_setMon {s : State} {ok : Bool} {body : State → State}
    (h : body (s.setMon m) = (body s).setMon m) :
    whenLegal ok (s.setMon m) body = (whenLegal ok s body).setMon m := by
  cases ok
  · rfl
  · exact h

theorem whenNotCont_setMon {s : State} {body : State → State} (h : body (s.setMon m) = (body s).setMon m) :
    whenNotCont (s.setMon m) body = (whenNotCont s body).setMon m := by
  unfold whenNotCont
  rw [setMon_contMode, h]
  split <;> rfl

/-- R134 to R136, R139: the operations that read or write the monitor. -/
def usesMonitor : Instr → Bool
  | .hostPerfBegin _ | .hostPerfReport | .hostScanChannels _ _ => true
  | _ => false

/-- R134: any other instruction carries the monitor along, whatever it holds. -/
theorem exec_setMon {i : Instr} {s t : State} (hi : usesMonitor i = false) (hx : exec i s = .next t) :
    exec i (s.setMon m) = .next (t.setMon m) := by
  have hrun : ∀ c, ((runCmd c (s.setMon m)).respond .ok .none) = ((runCmd c s).respond .ok .none).setMon m :=
    fun c => congrArg (State.respond · .ok .none) (runCmd_setMon m c s)
  cases i with
  | hostPerfBegin | hostPerfReport | hostScanChannels => cases hi
  | hostInit =>
    cases hx
    change Host.Outcome.next (if s.hstate = .ready then _ else _) = _
    rw [initRun_setMon]
    split <;> rfl
  | hostReset =>
    cases hx
    exact congrArg _ (whenReady_setMon m (congrArg (State.respond · .ok .none)
      (waitReady_setMon m .reset ((resetPulse s).setContMode false).loadDefaults)))
  | hostShutdown =>
    cases hx
    change Host.Outcome.next (State.respond (State.setHState (if s.lines.held then _ else _) _) _ _) = _
    split <;> rfl
  | hostConfigure g d b =>
    cases hx
    exact congrArg _ (whenReady_setMon m (whenLegal_setMon m (whenNotCont_setMon m
      (congrArg (fun u => (State.configured u g d b).respond .ok .none) (configureBus_setMon m g d b s)))))
  | hostReadChannel ch =>
    cases hx
    refine congrArg _ (whenReady_setMon m (whenNotCont_setMon m ?_))
    rw [acquire_setMon]
    rfl
  | hostWriteCmd c =>
    cases hx
    refine congrArg _ (whenReady_setMon m (whenLegal_setMon m ?_))
    rw [setMon_par]
    split
    · exact hrun c
    · exact whenNotCont_setMon m (hrun c)
  | hostWriteReg a v =>
    cases hx; exact congrArg _ (whenReady_setMon m (whenLegal_setMon m (whenNotCont_setMon m rfl)))
  | hostReadReg a =>
    cases hx; exact congrArg _ (whenReady_setMon m (whenLegal_setMon m (whenNotCont_setMon m rfl)))
  | hostDacWrite ch c =>
    cases hx
    refine congrArg _ (whenReady_setMon m ?_)
    split
    · next d _ => cases d <;> rfl
    · rfl
  | hostSetScanMode mode => cases hx; exact congrArg _ (whenReady_setMon m rfl)
  | hostGetConfig => cases hx; exact congrArg _ (whenReady_setMon m rfl)
  | hostRawToVoltage c g vp vn => cases hx; exact congrArg _ (whenLegal_setMon m rfl)
  | adcSelfcal => cases hx; exact congrArg _ (selfcalCmd_setMon m s)
  | adcReset => cases hx; exact congrArg _ (resetCmd_setMon m s)
  | _ => cases hx; rfl -- the commands of one transaction

end

/-- Settles O43: a begin call, a report and a scan differ in the monitor and the clock only, a report also in
its answer; every other instruction carries the monitor along. -/
theorem monitorDoesNotInterfere : Obligations.MonitorDoesNotInterfere := by
  unfold Obligations.MonitorDoesNotInterfere
  intro i s t m hx
  suffices ∃ m' o r, exec i (s.setMon m) = .next { t with mon := m', oracle := o, responses := r } ∧
      (i ≠ .hostPerfReport → r = t.responses) by
    obtain ⟨m', o, r, ht, hr⟩ := this
    exact ⟨_, ht, rfl, rfl, rfl, rfl, rfl, rfl, rfl, rfl, rfl, rfl, hr⟩
  cases i with
  | hostPerfBegin d => cases hx; exact ⟨_, _, _, rfl, fun _ => rfl⟩
  | hostPerfReport =>
    cases hx
    obtain ⟨m', o, h⟩ := refreshed_setMon m s
    exact ⟨m', o, (refreshed s).responses ++ [Response.mk .ok (.metrics (m'.report s.par))],
      congrArg (fun u => Host.Outcome.next (State.respond u .ok (.metrics (u.mon.report s.par)))) h,
      absurd rfl⟩
  | hostScanChannels l n =>
    obtain ⟨m', o, ht⟩ := execHostScanChannels_setMon m hx
    exact ⟨m', o, t.responses, ht, fun _ => rfl⟩
  | _ => exact ⟨m, t.oracle, t.responses, exec_setMon m rfl hx, fun _ => rfl⟩

end Sys2Proof.Machine
end

section
/-! SUPPORT. Proof of the statement of spec/44_voltage_codec.md: which multipliers the codec takes (R142), and
the exact voltage of a code (R143, R144). -/

namespace Sys2Proof.Machine

/-- R142: VALID_GAIN_MULT. -/
theorem validGainMult_iff {g : Nat} : validGainMult g = true ↔ g ∈ [1, 2, 4, 8, 16, 32, 64] :=
  List.contains_iff_mem

/-- R142: a multiplier of the table is a divisor. -/
theorem gain_ne_zero {g : Nat} (h : g ∈ [1, 2, 4, 8, 16, 32, 64]) : g ≠ 0 :=
  ne_of_mem_of_not_mem h (by decide)

/-- R143, R144: the voltage formula with both divisors multiplied out. -/
theorem voltageOf_mul_fullScale_mul_gain (code : Sample) {g : Nat} (vpos vneg : Rat) (hg : g ≠ 0) :
    voltageOf code g vpos vneg * (fullScale * g) = code.toInt * (vpos - vneg) := by
  have hg' : (g : Rat) ≠ 0 := Nat.cast_ne_zero.2 hg
  have hfs : (fullScale : Rat) ≠ 0 := Nat.cast_ne_zero.2 (by decide)
  rw [voltageOf, mul_mul_mul_comm, div_mul_cancel₀ _ hfs, div_mul_cancel₀ _ hg']

theorem execHostRawToVoltage_of_valid {code : Sample} {g : Nat} {vpos vneg : Rat} {s : State}
    (hg : validGainMult g = true) : execHostRawToVoltage code g vpos vneg s =
      .next (s.respond .ok (.voltage (answer s.par (voltageOf code g vpos vneg)))) := by
  rw [execHostRawToVoltage, hg, whenLegal_true]

theorem execHostRawToVoltage_of_invalid {code : Sample} {g : Nat} {vpos vneg : Rat} {s : State}
    (hg : validGainMult g = false) :
    execHostRawToVoltage code g vpos vneg s = .next (s.refuse .badArg) := by
  rw [execHostRawToVoltage, hg, whenLegal_false]

/-- Settles O36: the formula for a multiplier of the table, the refusal for any other. -/
theorem voltageFormula : Obligations.VoltageFormula := by
  unfold Obligations.VoltageFormula
  intro s code gain vpos vneg
  refine ⟨fun hg => ⟨voltageOf code gain vpos vneg, ?_, ?_⟩, fun hg => ?_⟩
  · exact voltageOf_mul_fullScale_mul_gain code vpos vneg (gain_ne_zero hg)
  · exact execHostRawToVoltage_of_valid (validGainMult_iff.2 hg)
  · exact execHostRawToVoltage_of_invalid (Bool.eq_false_iff.2 (mt validGainMult_iff.1 hg))

end Sys2Proof.Machine
end

section
/-! SUPPORT. Proofs of the statements of spec/45_config.md: HOST.CONFIGURE's three writes between two waits
(R145, R146), and the two operations on the register file alone (R147, R148). -/

namespace Sys2Proof.Machine

/-! ### HOST.CONFIGURE (R145, R146) -/

/-- R51: every gain code but 7 is a gain. -/
theorem validGainCode_of_ne : ∀ {g : GainCode}, g ≠ 7#3 → validGainCode g = true := by decide

/-- R145, R163: an admitted HOST.CONFIGURE. -/
theorem exec_hostConfigure {s : State} {g : GainCode} (hr : s.hstate = .ready) (hc : s.contMode = false)
    (hg : g ≠ 7#3) (d : RateIndex) (b : BitVec 1) : exec (.hostConfigure g d b) s =
      .next (((configureBus g d b s).configured g d b).respond .ok .none) := by
  simp only [exec, execHostConfigure, whenReady_of_ready hr, validGainCode_of_ne hg, whenLegal_true,
    whenNotCont_of_false hc]

/-- R145, R146: the three writes between HOST.CONFIGURE's two waits, one transaction each. -/
def configureWrites (g : GainCode) (d : RateIndex) (b : BitVec 1) (s : State) : State :=
  wReg1 s.par.regDrate (drateByte s.par d) <| wReg1 s.par.regAdcon (adconByte s.par g) <|
    wReg1 s.par.regStatus (statusByte s.par b) s

/-- R145: the writes stand between two waits. -/
theorem configureBus_eq (g : GainCode) (d : RateIndex) (b : BitVec 1) (s : State) :
    configureBus g d b s = waitReady .configure (configureWrites g d b (waitReady .configure s)) := by
  simp only [configureBus, configureWrites, wReg1_par]

/-- R102, R145: the writes go out in this order and leave everything but the lines and TRACE. -/
theorem configureWrites_state (g : GainCode) (d : RateIndex) (b : BitVec 1) (s : State) :
    configureWrites g d b s = { s with
      lines := s.lines.drive .adc .high
      trace := s.trace ++
        [wregEvent s.par s.par.regStatus (statusByte s.par b),
          wregEvent s.par s.par.regAdcon (adconByte s.par g),
          wregEvent s.par s.par.regDrate (drateByte s.par d)] } := by
  simp [configureWrites, wReg1_state]

/-- R145: all that HOST.CONFIGURE's bus events change: two waits' polls, and the writes between them. -/
theorem configureBus_waits (g : GainCode) (d : RateIndex) (b : BitVec 1) (s : State) :
    ∃ k₁ e₁ w₁ k₂ e₂ w₂ o, configureBus g d b s = { s with
        acq := { s.acq with pollCnt := k₂ }
        lines := s.lines.drive .adc .high
        trace := s.trace ++ e₁ ++
          [wregEvent s.par s.par.regStatus (statusByte s.par b),
            wregEvent s.par s.par.regAdcon (adconByte s.par g),
            wregEvent s.par s.par.regDrate (drateByte s.par d)] ++ e₂
        warnLog := s.warnLog ++ w₁ ++ w₂
        oracle := o } ∧
      s.oracle.WaitDraws o ∧ WaitShape s.par .low .configure k₁ e₁ w₁ ∧
      WaitShape s.par .low .configure k₂ e₂ w₂ := by
  obtain ⟨k₁, e₁, w₁, o₁, hfirst, hd₁, hs₁⟩ := waitReady_spec .configure s
  obtain ⟨k₂, e₂, w₂, o₂, hlast, hd₂, hs₂⟩ :=
    waitReady_spec .configure (configureWrites g d b (waitReady .configure s))
  rw [← configureBus_eq] at hlast
  rw [configureWrites_state, hfirst] at hlast hd₂ hs₂
  exact ⟨k₁, e₁, w₁, k₂, e₂, w₂, o₂, hlast, hd₁.trans hd₂, hs₁, hs₂⟩

/-- Settles O18: the bus is `configureBus_waits`, then the register file takes the operands. -/
theorem configureWritesThreeRegisters : Obligations.ConfigureWritesThreeRegisters := by
  unfold Obligations.ConfigureWritesThreeRegisters
  intro s g d b hr hc hg
  obtain ⟨k₁, e₁, w₁, k₂, e₂, w₂, o, hbus, hwaits⟩ := configureBus_waits g d b s
  refine ⟨k₁, e₁, w₁, k₂, e₂, w₂, o, ?_, hwaits⟩
  rw [exec_hostConfigure hr hc hg, hbus]
  rfl

/-! ### HOST.SET_SCAN_MODE and HOST.GET_CONFIG (R147, R148) -/

/-- Settles O19: on a READY handle the body runs, on another the request is refused. -/
theorem scanModeAndConfigReadback : Obligations.ScanModeAndConfigReadback := by
  unfold Obligations.ScanModeAndConfigReadback
  intro s m
  refine ⟨fun hr => ⟨?setReady, ?getReady⟩, fun hr => ⟨?setRefused, ?getRefused⟩⟩
  case setReady => exact congrArg Host.Outcome.next (whenReady_of_ready hr _)
  case getReady => exact congrArg Host.Outcome.next (whenReady_of_ready hr _)
  case setRefused => exact congrArg Host.Outcome.next (whenReady_of_not_ready hr _)
  case getRefused => exact congrArg Host.Outcome.next (whenReady_of_not_ready hr _)

end Sys2Proof.Machine
end

section
/-! SUPPORT. Proofs of the statements of spec/46_lifecycle.md: HOST.INIT's three endings (R151), HOST.RESET's
pulse and wait (R152), and HOST.SHUTDOWN on held and on released lines (R153). -/

namespace Sys2Proof.Machine

/-! ### HOST.INIT (R151) -/

/-- R162: HOST.INIT on a READY handle. -/
theorem exec_hostInit_of_ready {s : State} (hr : s.hstate = .ready) :
    exec .hostInit s = .next (s.refuse .alreadyInit) :=
  congrArg Host.Outcome.next (if_pos hr)

/-- R151: HOST.INIT from UNINIT or SHUTDOWN. -/
theorem exec_hostInit_of_not_ready {s : State} (hr : s.hstate ≠ .ready) :
    exec .hostInit s = .next (initRun s) :=
  congrArg Host.Outcome.next (if_neg hr)

/-- Settles O15: refused on a READY handle; otherwise `initRun_of_closed` without a transport, and
`initRun_of_open` with one, by the identity that is read. -/
theorem initOpensResetsIdentifies : Obligations.InitOpensResetsIdentifies := by
  unfold Obligations.InitOpensResetsIdentifies
  intro s
  refine ⟨exec_hostInit_of_ready, fun hr ho => ?closed, fun hr ho => ?opened⟩
  case closed => rw [exec_hostInit_of_not_ready hr, initRun_of_closed ho]
  case opened =>
    obtain ⟨k, evs, ws, o, hlast, hwait, hrun⟩ := initRun_of_open ho
    refine ⟨k, evs, ws, o, hlast, hwait, ?_⟩
    rw [exec_hostInit_of_not_ready hr, hrun]
    exact ⟨fun hid => congrArg Host.Outcome.next (if_pos hid),
      fun hid => congrArg Host.Outcome.next (if_neg hid)⟩

/-! ### HOST.RESET (R150, R152) -/

/-- R152: HOST.RESET once admitted, up to its response. -/
def resetRun (s : State) : State := waitReady .reset ((resetPulse s).setContMode false).loadDefaults

/-- R152: an admitted HOST.RESET. -/
theorem exec_hostReset_of_ready {s : State} (hr : s.hstate = .ready) :
    exec .hostReset s = .next ((resetRun s).respond .ok .none) :=
  congrArg Host.Outcome.next (whenReady_of_ready hr _)

/-- R150, R152: on held lines the pulse, CONT_MODE cleared, the defaults of R56, and one wait. -/
theorem resetRun_waits {s : State} (hh : s.lines.held = true) : ∃ k evs ws o, resetRun s = { s with
      cfg := ⟨0#3, 0#4, 0#1, s.cfg.scanMode⟩
      acq := { s.acq with pollCnt := k }
      contMode := false
      lines := { s.lines with rst := .driven .high }
      trace := s.trace ++ resetPulseEvents s.par ++ evs
      warnLog := s.warnLog ++ ws
      oracle := o } ∧
    s.oracle.WaitDraws o ∧ WaitShape s.par .low .reset k evs ws := by
  have h := waitReady_spec .reset ((resetPulse s).setContMode false).loadDefaults
  rwa [← resetRun, resetPulse_state hh] at h

/-- Settles O16: the bus and the registers are `resetRun_waits`; another handle is refused. -/
theorem hostResetPulsesAndRestores : Obligations.HostResetPulsesAndRestores := by
  unfold Obligations.HostResetPulsesAndRestores
  intro s
  refine ⟨fun hr => ?refused, fun hr hh => ?admitted⟩
  case refused => exact congrArg Host.Outcome.next (whenReady_of_not_ready hr _)
  case admitted =>
    obtain ⟨k, evs, ws, o, hrun, hwait⟩ := resetRun_waits hh
    refine ⟨k, evs, ws, o, ?_, hwait⟩
    rw [exec_hostReset_of_ready hr, hrun]
    rfl

/-! ### HOST.SHUTDOWN (R149, R153) -/

/-- R149, R153: HOST.SHUTDOWN while the transport is held closes it and releases the lines. -/
theorem exec_hostShutdown_of_held {s : State} (hh : s.lines.held = true) :
    exec .hostShutdown s = .next { s with
      hstate := .shutdown
      lines := Lines.released
      trace := s.trace ++ [.closed]
      responses := s.responses ++ [⟨.ok, .none⟩] } := by
  simp only [exec, execHostShutdown, if_pos hh]
  rfl

/-- R153: HOST.SHUTDOWN with nothing held has nothing to release. -/
theorem exec_hostShutdown_of_released {s : State} (hh : s.lines.held = false) :
    exec .hostShutdown s = .next { s with
      hstate := .shutdown
      responses := s.responses ++ [⟨.ok, .none⟩] } := by
  simp only [exec, execHostShutdown, hh]
  rfl

/-- Settles O17: the first call leaves the lines not held, so the second one finds nothing to release. -/
theorem shutdownIsIdempotent : Obligations.ShutdownIsIdempotent := by
  unfold Obligations.ShutdownIsIdempotent
  intro s
  cases hh : s.lines.held with
  | true =>
    exact ⟨_, exec_hostShutdown_of_held hh, rfl, exec_hostShutdown_of_released rfl⟩
  | false =>
    refine ⟨_, exec_hostShutdown_of_released hh, ?_, exec_hostShutdown_of_released hh⟩
    simp

end Sys2Proof.Machine
end

section
/-! SUPPORT. Proof of the statement of spec/47_dac.md: HOST.DAC_WRITE on the two channels, on any other index,
and on a handle that is not READY (R156). -/

namespace Sys2Proof.Machine

/-! ### HOST.DAC_WRITE (R156) -/

/-- R156: every index but 0 and 1 names no channel. -/
theorem dacChannel?_eq_none {ch : Int} (ha : ch ≠ 0) (hb : ch ≠ 1) : dacChannel? ch = none := by
  rw [dacChannel?, if_neg ha, if_neg hb]

theorem exec_hostDacWrite_of_not_ready {s : State} (hr : s.hstate ≠ .ready) (ch : Int) (code : DacCode) :
    exec (.hostDacWrite ch code) s = .next (s.refuse .notReady) :=
  congrArg Host.Outcome.next (whenReady_of_not_ready hr _)

/-- R155, R156: on a channel the frame goes out, then the shadow register takes the code. -/
theorem exec_hostDacWrite_of_channel {s : State} {ch : Int} {d : DacChannel} (hr : s.hstate = .ready)
    (hd : dacChannel? ch = some d) (code : DacCode) : exec (.hostDacWrite ch code) s =
      .next (((dacFrame d code s).setDac d code).respond .ok .none) := by
  simp only [exec, execHostDacWrite, whenReady_of_ready hr, hd]

/-- R156: another index only warns. -/
theorem exec_hostDacWrite_of_no_channel {s : State} {ch : Int} (hr : s.hstate = .ready)
    (hd : dacChannel? ch = none) (code : DacCode) : exec (.hostDacWrite ch code) s =
      .next ((s.warn (.dacInvalidChannel ch)).respond .ok .none) := by
  simp only [exec, execHostDacWrite, whenReady_of_ready hr, hd]

/-- Settles O37: the lifecycle is checked first; then the index names channel A, channel B or none, and on a
channel the bus carries one frame (`dacFrame_state`). -/
theorem dacWriteSendsAndShadows : Obligations.DacWriteSendsAndShadows := by
  unfold Obligations.DacWriteSendsAndShadows
  intro s ch code
  refine ⟨fun hr => ?notReady, fun hr ha => ?channelA, fun hr hb => ?channelB, fun hr ha hb => ?noChannel⟩
  case notReady => exact exec_hostDacWrite_of_not_ready hr ch code
  case channelA => rw [exec_hostDacWrite_of_channel hr (dacChannel?_eq_a.2 ha), dacFrame_state]; rfl
  case channelB => rw [exec_hostDacWrite_of_channel hr (dacChannel?_eq_b.2 hb), dacFrame_state]; rfl
  case noChannel => exact exec_hostDacWrite_of_no_channel hr (dacChannel?_eq_none ha hb) code

end Sys2Proof.Machine
end

section
/-! SUPPORT. Proof of the statement of spec/60_exceptions.md: each condition of the admission tables refuses
(R162 to R164), and what passes them all is answered once (R79, R158). -/

namespace Sys2Proof.Machine

section

variable {s : State} {i : Instr}

/-! ### Well-formed operands pass the operations' own checks (R82, R163) -/

theorem wellFormed_hostConfigure (p : Params) (g : GainCode) (d : RateIndex) (b : BitVec 1) :
    (Instr.hostConfigure g d b).wellFormed p = validGainCode g :=
  have h : ∀ g : GainCode, (g != 7#3) = validGainCode g := by decide
  h g

theorem wellFormed_hostScanChannels {p : Params} {l : List Int} {n : Byte} :
    (Instr.hostScanChannels l n).wellFormed p = true ↔ l.length ≤ maxScan ∧ n ≠ 0#8 := by
  simp [Instr.wellFormed]

theorem wellFormed_hostWriteCmd (p : Params) (c : Byte) :
    (Instr.hostWriteCmd c).wellFormed p = admittedCmd p c :=
  Bool.eq_iff_iff.2 (List.contains_iff_mem.trans admittedCmd_iff_mem.symm)

theorem wellFormed_hostWriteReg (p : Params) (a : RegAddr) (v : Byte) :
    (Instr.hostWriteReg a v).wellFormed p = validReg p a := rfl

theorem wellFormed_hostReadReg (p : Params) (a : RegAddr) :
    (Instr.hostReadReg a).wellFormed p = validReg p a := rfl

/-- R163: CONT_MODE refuses the command bytes that do not end it. -/
theorem needsQuiet_hostWriteCmd (p : Params) (c : Byte) :
    needsQuiet p (.hostWriteCmd c) = !endsContMode p c := by
  simp [needsQuiet, endsContMode, bne]

/-! ### The refusals, in their order (R162 to R164) -/

/-- R162: the lifecycle check comes first. -/
theorem exec_of_not_ready (hn : needsHandle i = true) (hr : s.hstate ≠ .ready) :
    exec i s = .next (s.refuse .notReady) := by
  cases i with
  | hostReset | hostConfigure | hostSetScanMode | hostGetConfig | hostReadChannel | hostWriteCmd
  | hostWriteReg | hostReadReg | hostDacWrite =>
    exact congrArg Host.Outcome.next (whenReady_of_not_ready hr _)
  | hostScanChannels => exact if_pos hr
  | _ => cases hn

/-- R125: a scan list that is too long, or a settling count of 0. -/
theorem exec_hostScanChannels_of_illegal {l : List Int} {n : Byte} (hr : s.hstate = .ready)
    (hw : (Instr.hostScanChannels l n).wellFormed s.par = false) :
    exec (.hostScanChannels l n) s = .next (s.refuse .badArg) := by
  simp only [exec, execHostScanChannels, hr, ne_eq, not_true_eq_false, if_false]
  split_ifs with hl hn
  · rfl
  · rfl
  all_goals exact absurd (wellFormed_hostScanChannels.2 ⟨not_lt.1 hl, hn⟩) (Bool.eq_false_iff.1 hw)

/-- R164: the argument check follows the lifecycle check. -/
theorem exec_of_not_wellFormed (hi : i.isHost = true) (hr : needsHandle i = true → s.hstate = .ready)
    (hw : i.wellFormed s.par = false) : exec i s = .next (s.refuse .badArg) := by
  cases i with
  | hostConfigure g d b =>
    rw [wellFormed_hostConfigure] at hw
    simp only [exec, execHostConfigure, whenReady_of_ready (hr rfl), hw, whenLegal_false]
  | hostScanChannels => exact exec_hostScanChannels_of_illegal (hr rfl) hw
  | hostWriteCmd c =>
    rw [wellFormed_hostWriteCmd] at hw
    simp only [exec, execHostWriteCmd, whenReady_of_ready (hr rfl), hw, whenLegal_false]
  | hostWriteReg a =>
    rw [wellFormed_hostWriteReg] at hw
    simp only [exec, execHostWriteReg, whenReady_of_ready (hr rfl), hw, whenLegal_false]
  | hostReadReg a =>
    rw [wellFormed_hostReadReg] at hw
    simp only [exec, execHostReadReg, whenReady_of_ready (hr rfl), hw, whenLegal_false]
  | hostRawToVoltage code gain vpos vneg => exact execHostRawToVoltage_of_invalid hw
  | adcRreg | adcWreg => cases hi
  | _ => cases hw

/-- R163, R164: the continuous-mode check comes last. -/
theorem exec_of_contMode (hr : needsHandle i = true → s.hstate = .ready) (hw : i.wellFormed s.par = true)
    (hq : needsQuiet s.par i = true) (hc : s.contMode = true) :
    exec i s = .next (s.refuse .contMode) := by
  cases i with
  | hostConfigure g d b =>
    rw [wellFormed_hostConfigure] at hw
    simp only [exec, execHostConfigure, whenReady_of_ready (hr rfl), hw, whenLegal_true,
      whenNotCont_of_true hc]
  | hostReadChannel ch =>
    simp only [exec, execHostReadChannel, whenReady_of_ready (hr rfl), whenNotCont_of_true hc]
  | hostScanChannels l n =>
    obtain ⟨hl, hn⟩ := wellFormed_hostScanChannels.1 hw
    simp [exec, execHostScanChannels, hr rfl, hn, not_lt.2 hl, hc]
  | hostWriteCmd c =>
    rw [wellFormed_hostWriteCmd] at hw
    rw [needsQuiet_hostWriteCmd, Bool.not_eq_true'] at hq
    simp only [exec, execHostWriteCmd, whenReady_of_ready (hr rfl), hw, whenLegal_true, hq,
      whenNotCont_of_true hc, Bool.false_eq_true, if_false]
  | hostWriteReg a =>
    rw [wellFormed_hostWriteReg] at hw
    simp only [exec, execHostWriteReg, whenReady_of_ready (hr rfl), hw, whenLegal_true,
      whenNotCont_of_true hc]
  | hostReadReg a =>
    rw [wellFormed_hostReadReg] at hw
    simp only [exec, execHostReadReg, whenReady_of_ready (hr rfl), hw, whenLegal_true,
      whenNotCont_of_true hc]
  | _ => cases hq

/-- R162 to R164: a refused host operation answers the first refusal it meets, and changes nothing else. -/
theorem exec_of_refusalOf_some {e : Status} (hi : i.isHost = true) (h : refusalOf s i = some e) :
    exec i s = .next (s.refuse e) := by
  unfold refusalOf at h
  split_ifs at h with hinit hready hlegal hquiet
  all_goals cases h
  · obtain ⟨rfl, hr⟩ := hinit
    exact exec_hostInit_of_ready hr
  · exact exec_of_not_ready hready.1 hready.2
  · exact exec_of_not_wellFormed hi (fun hn => not_not.1 fun hr => hready ⟨hn, hr⟩) hlegal
  · exact exec_of_contMode (fun hn => not_not.1 fun hr => hready ⟨hn, hr⟩)
      (Bool.not_eq_false _ ▸ hlegal) hquiet.1 hquiet.2

/-! ### The answer of an admitted operation (R79, R151, R158) -/

/-- R162 to R164: what an admitted request has passed. -/
theorem refusalOf_eq_none_iff : refusalOf s i = none ↔ (i = .hostInit → s.hstate ≠ .ready) ∧
    (needsHandle i = true → s.hstate = .ready) ∧ i.wellFormed s.par = true ∧
    (needsQuiet s.par i = true → s.contMode = false) := by
  unfold refusalOf
  split_ifs <;> simp_all

/-- R151: HOST.INIT answers once, OK or one of its two failures. -/
theorem initRun_responses (s : State) : ∃ st, (initRun s).responses = s.responses ++ [⟨st, .none⟩] ∧
    (st = .ok ∨ st = .initBus ∨ st = .initId) := by
  cases ho : s.oracle.nextOpen with
  | false => exact ⟨.initBus, by rw [initRun_of_closed ho], .inr (.inl rfl)⟩
  | true =>
    obtain ⟨k, evs, ws, o, -, -, hrun⟩ := initRun_of_open ho
    rw [hrun]
    split
    · exact ⟨.ok, rfl, .inl rfl⟩
    · exact ⟨.initId, rfl, .inr (.inr rfl)⟩

/-- R158: every other host operation, once admitted, answers OK, and nothing before that. -/
theorem exec_of_refusalOf_none (hi : i.isHost = true) (h : refusalOf s i = none) (hne : i ≠ .hostInit) :
    ∃ u pl, exec i s = .next (State.respond u .ok pl) ∧ u.responses = s.responses := by
  obtain ⟨-, hready, hlegal, hquiet⟩ := refusalOf_eq_none_iff.1 h
  cases i with
  | hostInit => exact absurd rfl hne
  | hostReset => exact ⟨_, _, exec_hostReset_of_ready (hready rfl), by simp [resetRun]⟩
  | hostShutdown => exact ⟨_, _, rfl, by split <;> rfl⟩
  | hostConfigure g d b =>
    exact ⟨_, _, exec_hostConfigure (hready rfl) (hquiet rfl) (bne_iff_ne.1 hlegal) d b,
      by simp [configureBus]⟩
  | hostSetScanMode m => exact ⟨_, _, congrArg Host.Outcome.next (whenReady_of_ready (hready rfl) _), rfl⟩
  | hostGetConfig => exact ⟨_, _, congrArg Host.Outcome.next (whenReady_of_ready (hready rfl) _), rfl⟩
  | hostReadChannel ch =>
    exact ⟨_, _, exec_hostReadChannel (hready rfl) (hquiet rfl) ch, acquire_responses _ (by decide) ..⟩
  | hostScanChannels l n =>
    obtain ⟨hl, hn⟩ := wellFormed_hostScanChannels.1 hlegal
    obtain ⟨vs, hv⟩ := readResults_scanRun hl hn s
    refine ⟨scanRun l n s, .samples vs, ?_, scanRun_responses _ hn hl⟩
    rw [exec_hostScanChannels (hready rfl) (hquiet rfl) hl hn, scanRespond, hv]
  | hostWriteCmd c =>
    rw [wellFormed_hostWriteCmd] at hlegal
    rw [needsQuiet_hostWriteCmd, Bool.not_eq_true'] at hquiet
    have hc : s.contMode = false ∨ endsContMode s.par c = true :=
      (Bool.eq_false_or_eq_true _).symm.imp_left hquiet
    exact ⟨_, _, exec_hostWriteCmd (hready rfl) hlegal hc, runCmd_responses _ c⟩
  | hostWriteReg a v =>
    exact ⟨_, _, exec_hostWriteReg (hready rfl) (hquiet rfl) (of_decide_eq_true hlegal) v, by simp⟩
  | hostReadReg a =>
    exact ⟨_, _, exec_hostReadReg (hready rfl) (hquiet rfl) (of_decide_eq_true hlegal), by simp⟩
  | hostDacWrite ch code =>
    cases hd : dacChannel? ch with
    | some d => exact ⟨_, _, exec_hostDacWrite_of_channel (hready rfl) hd code, by simp⟩
    | none => exact ⟨_, _, exec_hostDacWrite_of_no_channel (hready rfl) hd code, rfl⟩
  | hostPerfBegin d => exact ⟨_, _, rfl, rfl⟩
  | hostPerfReport =>
    obtain ⟨m, o, hrun⟩ := refreshed_frame s
    exact ⟨_, _, rfl, by rw [hrun]⟩
  | hostRawToVoltage code gain vpos vneg => exact ⟨_, _, execHostRawToVoltage_of_valid hlegal, rfl⟩
  | _ => cases hi

end

/-- Settles O38: a refused request by the first condition that refuses it, an admitted HOST.INIT by its three
endings, and any other admitted operation by its answer OK. -/
theorem admissionTable : Obligations.AdmissionTable := by
  unfold Obligations.AdmissionTable
  intro s i hi
  cases h : refusalOf s i with
  | some e =>
    refine ⟨_, ⟨e, .none⟩, exec_of_refusalOf_some hi h, rfl, fun _ => rfl, ?_, nofun⟩
    rintro _ ⟨⟩
    rfl
  | none =>
    by_cases hinit : i = .hostInit
    · subst hinit
      obtain ⟨st, hrun, hst⟩ := initRun_responses s
      exact ⟨_, ⟨st, .none⟩, exec_hostInit_of_not_ready ((refusalOf_eq_none_iff.1 h).1 rfl), hrun,
        fun _ => rfl, nofun, fun _ => hst.imp_right fun hfail => ⟨rfl, hfail⟩⟩
    · obtain ⟨u, pl, hrun, hresp⟩ := exec_of_refusalOf_none hi h hinit
      exact ⟨_, ⟨.ok, pl⟩, hrun, by rw [respond_responses, hresp], fun hne => absurd rfl hne, nofun,
        fun _ => .inl rfl⟩

end Sys2Proof.Machine
end
